-- ==== Sys2Proof/Word.lean ====
section
/-! DEFINITION. The two bit words of the PG-2: a byte of a serial line and a value of the time count. -/

namespace Sys2Proof

/-- One byte of a serial line or of the configuration memory (R15, R179). -/
abbrev Byte := BitVec 8

/-- A value of the 32-bit time count, in units of 0.5 ms; it wraps to 0 after 4 294 967 295 (R20). -/
abbrev Time := BitVec 32

end Sys2Proof
end

