-- ==== Sys2Proof/Config.lean ====
section
/-! DEFINITION. What the manual leaves open: three free choices of order, with no body, so that no proof can see
which order they give. Each is applied to the model's own counter `State.choices`, so that every occasion has a
choice of its own (notes/assumptions/2.md and 3.md). -/

namespace Sys2Proof

/-- Whether the RCT's take of a mode command comes before the gate computation of the same control period expiry:
the manual gives both orders and no rule for the choice (R88). -/
opaque Config.takeBeforeGate : Nat → Bool

/-- Whether the change from HALT to BACK, or from BUMP_HALT to BUMP_REVERSE, comes before the gate computation of
the same control period expiry: the manual gives both orders and no rule for the choice (R127, R149). -/
opaque Config.phaseBeforeGate : Nat → Bool

/-- The order of the timers that come due at one advance of the time count: the manual says that each is judged at
every advance and not which is first. The number names a permutation. -/
opaque Config.timerOrder : Nat → Nat

end Sys2Proof
end

