-- ==== Sys2Proof/Syntax.lean ====
section
/-! DEFINITION. The commands of the PG-2: one constructor of `Instr` for each row of spec/opcode_table.json, with the
fields that the row's frame carries (R180, R181) or that name the timer or line concerned. -/

namespace Sys2Proof

/-- The two lines whose frames the DLI and the SNP judge and watch (R164, R166). -/
inductive Line where
  | drive | sense
  deriving DecidableEq, Repr

/-- What ends a segment (R79). -/
inductive LimitKind where
  | dist | time
  deriving DecidableEq, Repr

/-- The seven mode commands (section 6.3); `returnHome` is Return. -/
inductive ModeKind where
  | hold | resume | creep | step | returnHome | undock | stop
  deriving DecidableEq, Repr

/-- When event flags are cleared (R175). -/
inductive ClearMode where
  | explicit | onStatus
  deriving DecidableEq, Repr

/-- The five brush states (R161). -/
inductive BrushState where
  | run | low | lift | stop | reverse
  deriving DecidableEq, Repr

/-- The twenty-six event kinds, in the order of their numbers 0..25 (section 10.4). -/
inductive EventKind where
  | powerOn | restarted | configDefaulted | bump | cliff | cliffDiscounted | wheelDrop | lifted | stall | brushJam
  | brushNoAck | reflexAborted | tileLate | windowFull | poseEdge | poseLost | segmentOverflow | segmentsEmpty
  | modeLost | commandRefused | docked | dockFail | dockLost | driveLost | senseLost | markDropped
  deriving DecidableEq, Repr

/-- The name of a tile: its level, tile column and tile row (R1). -/
structure TileKey where
  level : Nat
  col : Nat
  row : Nat
  deriving DecidableEq, Repr

/-- A class code 0..15 (R6). -/
abbrev CellClass := Fin 16

/-- A cell index 0..255 within a tile (R1). -/
abbrev CellIndex := Fin 256

/-- The 256 cell classes of a tile, by cell index (R36). -/
abbrev Cells := Vector CellClass 256

/-- The two forms of a TILE frame's contents (section 3.7). A FULL frame packs its classes four bits each, so
every one is a class code; a UNIFORM frame's class byte may lie above 15, which makes the frame bad (R50). -/
inductive TileContents where
  | full (classes : Cells)
  | uniform (cls : Nat)
  deriving DecidableEq, Repr

/-- One entry of a response table load, as given (R8). -/
structure ResponseEntry where
  record : Nat
  blocking : Nat
  edge : Nat
  floorCap : Nat
  brush : Nat
  trust : Nat
  deriving DecidableEq, Repr

/-- One entry of a learn table load, as given (R9). -/
structure LearnEntry where
  kind : Nat
  cls : Nat
  deriving DecidableEq, Repr

/-- A beacon observation: which receivers saw the beacon, and the code it carried (R144). -/
structure Beacon where
  left : Bool
  centre : Bool
  right : Bool
  code : Nat
  deriving DecidableEq, Repr

/-- The fields of a sense frame (section 11.3). -/
structure SenseFrame where
  age : Nat
  yaw : Int
  cliffFL : Nat
  cliffFR : Nat
  cliffSL : Nat
  cliffSR : Nat
  bumperLeft : Bool
  bumperRight : Bool
  dropLeft : Bool
  dropRight : Bool
  contact : Bool
  beacon : Option Beacon
  dockId : Option Nat
  deriving DecidableEq, Repr

/-- How the power-on read of the configuration memory went: a transfer went unanswered, or the memory answered with
a format byte and the seventy bytes after it (R15). -/
inductive ConfigRead where
  | unanswered
  | answered (format : Byte) (values : Vector Byte 70)
  deriving DecidableEq, Repr

/-- The commands of the block, one constructor per row of spec/opcode_table.json. -/
inductive Instr where
  | powerOn
  | configReadEnd (read : ConfigRead)
  | segment (vL vR : Int) (kind : LimitKind) (limit : Nat) (brush : Option Nat) (tag : Option Nat)
  | start
  | mode (kind : ModeKind) (factor : Nat)
  | tile (key : TileKey) (generation : Nat) (contents : TileContents)
  | tileDrop (key : TileKey)
  | setPose (level x y heading : Nat)
  | loadResponse (entries : List ResponseEntry)
  | loadLearn (entries : List LearnEntry)
  | loadBraking (limits : List Nat) (vclear : Nat)
  | loadCalibration (values : List Int)
  | loadDock (level x y heading code : Nat)
  | statusRequest
  | eventMask (clearMode : ClearMode) (kinds : List EventKind)
  | eventClear (kinds : List EventKind)
  | forceEvent (kind : EventKind)
  | restart
  | planBadFrame
  | odometryReply (tL tR : Int) (stallLeft stallRight : Bool)
  | brushStatus (state : BrushState) (jam : Bool)
  | senseFrame (frame : SenseFrame)
  | linkBadFrame (line : Line)
  | controlPeriodExpiry
  | requestTimeout (slot : Fin 16)
  | brushTimeout
  | linkTimeout (line : Line)
  | backOffTimeLimit
  | lostBeaconExpiry
  | bumpReverseTimeLimit
  | undockTimeLimit
  | statusInterval
  | planTransmitterFree
  | driveTransmitterFree
  deriving DecidableEq, Repr

end Sys2Proof
end

