-- ==== Sys2Proof/Machine/State.lean ====
section
/-! DEFINITION. The state of the PG-2, block by block as the manual's block diagram has it, and its value right after
power-on. Every type is plain data. -/

namespace Sys2Proof.Machine

/-! ## The Table Store (chapter 1) -/

/-- Cliff trust of a class (R6). -/
inductive CliffTrust where
  | immediate | confirm
  deriving DecidableEq, Repr

/-- One record of the class response table (R6). -/
structure ResponseRecord where
  blocking : Bool
  edge : Bool
  floorCap : Nat
  brush : BrushState
  trust : CliffTrust
  deriving DecidableEq, Repr

/-- The five marking event kinds, in the order of their codes 0..4 (R9, R180). -/
inductive MarkKind where
  | cliff | drop | bump | stall | jam
  deriving DecidableEq, Repr

/-- The learn table: the class that each marking event kind writes, or none for NONE (R9). -/
structure LearnTable where
  cliff : Option CellClass
  drop : Option CellClass
  bump : Option CellClass
  stall : Option CellClass
  jam : Option CellClass
  deriving DecidableEq, Repr

/-- The braking table: entry `limits[k-1]` is B[k] (R10). -/
structure BrakingTable where
  limits : Vector Nat 16
  vclear : Nat
  deriving DecidableEq, Repr

/-- The calibration record, its thirty-five values in the order of R11. -/
structure Calibration where
  tickLength : Nat
  trackWidth : Nat
  leadDistance : Nat
  lookAhead : Nat
  vMax : Nat
  vWheel : Nat
  vSpin : Nat
  controlPeriod : Nat
  cliffThreshold : Nat
  confirmDistance : Nat
  confirmTime : Nat
  confirmCreep : Nat
  backOffDistance : Nat
  backOffSpeed : Nat
  backOffTimeLimit : Nat
  flForward : Int
  flLeft : Int
  frForward : Int
  frLeft : Int
  slForward : Int
  slLeft : Int
  srForward : Int
  srLeft : Int
  bumperOffset : Nat
  requestTimeout : Nat
  driveTimeout : Nat
  senseTimeout : Nat
  brushTimeout : Nat
  approachRadius : Nat
  approachSpeed : Nat
  approachTurnSpeed : Nat
  beaconLostTime : Nat
  undockDistance : Nat
  blindLimit : Nat
  statusInterval : Nat
  deriving DecidableEq, Repr

/-- The dock record: the robot's pose when docked, in mm, and the dock code (R14). -/
structure DockRecord where
  level : Nat
  x : Nat
  y : Nat
  heading : Nat
  code : Nat
  deriving DecidableEq, Repr

/-- The Table Store, TBS. The sine table is built in and is no state (R5). -/
structure TableStore where
  response : Vector ResponseRecord 16
  learn : LearnTable
  braking : BrakingTable
  cal : Calibration
  dock : DockRecord
  deriving DecidableEq, Repr

/-! ## The Pose Tracker (chapter 2) -/

/-- The pose record: position in sixteenths, heading in binary angle units (R19). -/
structure Pose where
  valid : Bool
  level : Nat
  x : Nat
  y : Nat
  heading : Nat
  deriving DecidableEq, Repr

/-- One entry of the pose history ring (R26). -/
structure HistoryEntry where
  stamp : Time
  x : Nat
  y : Nat
  heading : Nat
  deriving DecidableEq, Repr

/-- The Pose Tracker, POT: `history` is the ring, oldest entry first (R19, R20, R26). -/
structure PoseTracker where
  pose : Pose
  history : List HistoryEntry
  timeCount : Time
  deriving DecidableEq, Repr

/-! ## The Tile Window and the marks (chapters 3 and 4) -/

/-- One mark record (R63). -/
structure MarkRecord where
  cell : CellIndex
  cls : CellClass
  kind : MarkKind
  stale : Bool
  sent : Bool
  deriving DecidableEq, Repr

/-- What a slot with contents holds: key, generation and cell classes (R36). -/
structure Tile where
  key : TileKey
  generation : Nat
  cells : Cells
  deriving DecidableEq, Repr

/-- The marks of a slot: the marks list, oldest first, and the overflow flag (R36, R64). `eightSentAt` is the model's own: the
time count at which a LIST of eight was built from these marks, so that a mark which comes together with that build is known
(R72, notes/assumptions/31.md). -/
structure Marks where
  records : List MarkRecord
  overflow : Bool
  eightSentAt : Option Time := none
  deriving DecidableEq, Repr

/-- One slot record. The fields that R36 gives as absent in a state, or as empty and clear, are not there. -/
inductive Slot where
  | empty
  | pending (key : TileKey) (requested : Time)
  | clean (tile : Tile)
  | marked (tile : Tile) (marks : Marks)
  | sent (tile : Tile) (marks : Marks)
  deriving DecidableEq, Repr

/-- The number of a slot, 0..15. -/
abbrev SlotNo := Fin 16

/-- The Tile Window, TWN: sixteen slots, the recency order from least-recent to most-recent, and the
unsolicited-discard count (R36, R39, R50). The pending-request count is the number of PENDING slots (R43). -/
structure TileWindow where
  slots : Vector Slot 16
  recency : List SlotNo
  unsolicited : Nat
  deriving DecidableEq, Repr

/-- The Mark and Report Unit, MRU: report queue and marked order, oldest first, and the marks-dropped count
(R66, R67, R68). -/
structure MarkUnit where
  reportQueue : List TileKey
  markedOrder : List SlotNo
  dropped : Nat
  deriving DecidableEq, Repr

/-! ## The Motion Gate (chapter 5) -/

/-- A segment record (R79). -/
structure Segment where
  vL : Int
  vR : Int
  kind : LimitKind
  limit : Nat
  brush : Option BrushState
  tag : Option Nat
  deriving DecidableEq, Repr

/-- The current segment with its travel sum, in 1/1024 mm of both wheels, and its elapsed time in ms (R82, R83). -/
structure CurrentSegment where
  segment : Segment
  travel : Nat
  elapsed : Nat
  deriving DecidableEq, Repr

/-- The control period that is running: its start and its length in ms (R88). -/
structure Period where
  start : Time
  length : Nat
  deriving DecidableEq, Repr

/-- The stored gate result (R100). -/
structure GateResult where
  vc : Int
  vlim : Option Nat
  kStar : Nat
  scaled : Bool
  deriving DecidableEq, Repr

/-- The Motion Gate, MGT (R80, R82, R84, R88, R100). `period` is none while the timer does not run. -/
structure MotionGate where
  queue : List Segment
  current : Option CurrentSegment
  completed : Nat
  starved : Bool
  period : Option Period
  result : GateResult
  deriving DecidableEq, Repr

/-! ## The Run Controller (chapter 6) -/

/-- The thirteen run states, in the order of their codes 0..12 (R103, R182). -/
inductive RunState where
  | loading | idle | run | creep | step | hold | reflex | homing | approach | docked | undocking | lifted | fault
  deriving DecidableEq, Repr

/-- A queued mode command; `factor` is the clamped factor of a Creep and 0 for the kinds that carry none (R108). -/
structure ModeCommand where
  kind : ModeKind
  factor : Nat
  deriving DecidableEq, Repr

/-- The Run Controller, RCT: run state, mode command queue oldest first, creep factor n, pending-step flag. -/
structure RunController where
  state : RunState
  modeQueue : List ModeCommand
  creep : Nat
  pendingStep : Bool
  deriving DecidableEq, Repr

/-! ## The Reflex Unit (chapter 7) -/

/-- A bumper or stall side (R124). -/
inductive Side where
  | left | right | both
  deriving DecidableEq, Repr

/-- A wheel (R124). -/
inductive Wheel where
  | left | right
  deriving DecidableEq, Repr

/-- The four cliff sensors (R122). -/
inductive CliffSensor where
  | fl | fr | sl | sr
  deriving DecidableEq, Repr

/-- A trigger that fired, with its side, wheel or sensor (R124). -/
inductive Hazard where
  | cliff (sensor : CliffSensor)
  | drop (wheel : Wheel)
  | bump (side : Side)
  | stall (side : Side)
  | jam
  deriving DecidableEq, Repr

/-- A travel sum, in 1/1024 mm of both wheels, and the time count at its start (R24). -/
structure Measure where
  travel : Nat
  start : Time
  deriving DecidableEq, Repr

/-- The reflex phase with the reflex's cause; in BACK, the back-off's sum and start (R126, R127). -/
inductive ReflexPhase where
  | none
  | halt (cause : Hazard)
  | back (cause : Hazard) (backOff : Measure)
  deriving DecidableEq, Repr

/-- One value for each cliff sensor. -/
structure PerSensor (α : Type) where
  fl : α
  fr : α
  sl : α
  sr : α
  deriving DecidableEq, Repr

/-- The armed flags of the eleven hazard inputs (R122). -/
structure Armed where
  bumperLeft : Bool
  bumperRight : Bool
  dropLeft : Bool
  dropRight : Bool
  cliff : PerSensor Bool
  stallLeft : Bool
  stallRight : Bool
  jam : Bool
  deriving DecidableEq, Repr

/-- The Reflex Unit, RFX. A closed suspect record is none; an active one is its travel sum and opening time (R134). -/
structure ReflexUnit where
  phase : ReflexPhase
  suspects : PerSensor (Option Measure)
  approachBumps : Nat
  armed : Armed
  deriving DecidableEq, Repr

/-! ## The Dock Approach Unit (chapter 8) -/

/-- The approach phase (R143). -/
inductive ApproachPhase where
  | none | track | search | bumpHalt | bumpReverse | contact
  deriving DecidableEq, Repr

/-- The sector of a beacon observation (R144). -/
inductive Sector where
  | left | centre | right
  deriving DecidableEq, Repr

/-- The Dock Approach Unit, DAU (R143): the lost-beacon timer's start, or none while it is stopped; the reverse
measure of BUMP_REVERSE and of UNDOCKING, or none. -/
structure DockUnit where
  phase : ApproachPhase
  lastSector : Option Sector
  beaconTimer : Option Time
  searchTurn : Nat
  contactCount : Nat
  idWait : Nat
  reverse : Option Measure
  deriving DecidableEq, Repr

/-! ## The three lines (chapters 9 and 10) -/

/-- The receiver of a line: hunting for a sync byte, or in a frame with the bytes taken after its sync byte (R168). -/
inductive Receiver where
  | hunting
  | inFrame (bytes : List Byte)
  deriving DecidableEq, Repr

/-- The watch on a line; `off` until LOADING ends (R164). -/
inductive Watch where
  | off
  | waiting (start : Time)
  | up (start : Time)
  | lost
  deriving DecidableEq, Repr

/-- A frame that the DLI sends: a setpoint frame, or a brush frame with its command, none being NULL (R157). -/
inductive DriveFrame where
  | setpoint (vL vR : Int)
  | brush (command : Option BrushState)
  deriving DecidableEq, Repr

/-- A brush change-state command that is not yet confirmed, and when it was sent (R161). -/
structure Reservation where
  commanded : BrushState
  sentAt : Time
  deriving DecidableEq, Repr

/-- The Drive Link Interface, DLI: the brush record of R161, the pair of the last setpoint frame, the watch, the error
count, the receiver, the frame that is leaving and the frames that wait behind it, first to leave first. -/
structure DriveLink where
  brushState : BrushState
  reservation : Option Reservation
  pendingBrush : Option BrushState
  lastWish : BrushState
  lastSetpoints : Int × Int
  watch : Watch
  errors : Nat
  receiver : Receiver
  leaving : Option DriveFrame
  waiting : List DriveFrame
  deriving DecidableEq, Repr

/-- The Sense Port, SNP (R163, R164, R166). -/
structure SensePort where
  watch : Watch
  lastContact : Bool
  errors : Nat
  receiver : Receiver
  deriving DecidableEq, Repr

/-! ## Events (section 10.4) -/

/-- What COMMAND_REFUSED names (R182). -/
inductive RefusedCommand where
  | mode (kind : ModeKind)
  | start
  | setPose
  deriving DecidableEq, Repr

/-- The reasons of DOCK_FAIL (section 10.4). -/
inductive DockFailure where
  | noBeacon | wrongDock | noId | bumps | held | cliff | reflex | levelHeld
  deriving DecidableEq, Repr

/-- The detail that an event carries (section 10.4, R182): `hazard` is the side, wheel or sensor of a trigger with the
discarded count when an entry was made; `tag none` is "untagged". -/
inductive Detail where
  | none
  | forced
  | configNoAnswer
  | configBadFormat
  | hazard (h : Hazard) (discarded : Option Nat)
  | sensor (sensor : CliffSensor)
  | discarded (count : Nat)
  | brush (commanded : BrushState)
  | cause (h : Hazard)
  | key (key : TileKey)
  | edgeOdometry
  | edgeSetPose
  | lifted
  | tag (tag : Option Nat)
  | mode (kind : ModeKind)
  | refused (command : RefusedCommand)
  | dockCode (code : Nat)
  | dockFailure (reason : DockFailure)
  | neverAnswered
  | stopped
  | mark (kind : MarkKind) (key : TileKey)
  deriving DecidableEq, Repr

/-- One event kind's flag, stored detail and mask (R174, R175). -/
structure EventRecord where
  flag : Bool
  detail : Detail
  masked : Bool
  deriving DecidableEq, Repr

/-- The Event Unit, EVU: the twenty-six records by kind number, and the clear mode. -/
structure EventUnit where
  records : Vector EventRecord 26
  clearMode : ClearMode
  deriving DecidableEq, Repr

/-! ## The Plan Link Interface (chapter 10) -/

/-- Where an EVENT frame says the robot was (R174). -/
structure Place where
  level : Nat
  x : Nat
  y : Nat
  heading : Nat
  deriving DecidableEq, Repr

/-- An EVENT frame; it carries no place when the pose was invalid (R174). -/
structure EventFrame where
  kind : EventKind
  detail : Detail
  time : Time
  place : Option Place
  deriving DecidableEq, Repr

/-- The reason of a TILE_RETRY (R73). -/
inductive RetryReason where
  | marked | stale
  deriving DecidableEq, Repr

/-- The kind of frame that a TILE_RETRY refuses (R73). -/
inductive RefusedFrame where
  | tile | tileDrop
  deriving DecidableEq, Repr

/-- A TILE_RETRY frame (R73). -/
structure RetryFrame where
  key : TileKey
  reason : RetryReason
  refused : RefusedFrame
  generation : Nat
  deriving DecidableEq, Repr

/-- The five table selectors (R7). -/
inductive Selector where
  | response | learn | braking | calibration | dock
  deriving DecidableEq, Repr

/-- The three load answers (R7). -/
inductive Answer where
  | accepted | clamped | busy
  deriving DecidableEq, Repr

/-- A LOAD_ANSWER frame (R7). -/
structure AnswerFrame where
  selector : Selector
  answer : Answer
  deriving DecidableEq, Repr

/-- What a REPORT carries: the unsent records of a LIST, or the cells of an IMAGE (R70). -/
inductive ReportBody where
  | list (marks : List MarkRecord)
  | image (cells : Cells)
  deriving DecidableEq, Repr

/-- A REPORT frame (R70). -/
structure ReportFrame where
  key : TileKey
  baseGeneration : Nat
  body : ReportBody
  deriving DecidableEq, Repr

/-- The numbers of slots in each state (R172). -/
structure SlotCounts where
  empty : Nat
  pending : Nat
  clean : Nat
  marked : Nat
  sent : Nat
  deriving DecidableEq, Repr

/-- A STATUS frame (R172); `events` holds each set flag's kind with its stored detail, in kind number order. -/
structure StatusFrame where
  run : RunState
  creep : Nat
  pose : Pose
  segmentFree : Nat
  modeFree : Nat
  reportDepth : Nat
  currentTag : Option Nat
  completed : Nat
  gate : GateResult
  slots : SlotCounts
  events : List (EventKind × Detail)
  planErrors : Nat
  driveErrors : Nat
  senseErrors : Nat
  marksDropped : Nat
  unsolicited : Nat
  brush : BrushState
  reserved : Option BrushState
  contact : Bool
  deriving DecidableEq, Repr

/-- A frame that the part sends on the Plan Link (R171). -/
inductive PlanFrame where
  | event (frame : EventFrame)
  | retry (frame : RetryFrame)
  | answer (frame : AnswerFrame)
  | request (key : TileKey)
  | report (frame : ReportFrame)
  | status (frame : StatusFrame)
  deriving DecidableEq, Repr

/-- The Plan Link Interface, PLI: frame-error count, receiver, the frame that is leaving, the frames that wait by kind,
oldest first (R171), whether a STATUS frame waits (R172), and the status timer's start (R173). The REPORT that waits
is the head of the MRU's report queue. -/
structure PlanLink where
  errors : Nat
  receiver : Receiver
  leaving : Option PlanFrame
  events : List EventFrame
  retries : List RetryFrame
  answers : List AnswerFrame
  requests : List TileKey
  statusWaits : Bool
  statusStart : Time
  deriving DecidableEq, Repr

/-! ## The whole part -/

/-- The state of the PG-2: its twelve blocks, and two fields of the model's own: `pending`, the commands that wait,
first in first out, and `choices`, the counter that indexes the free choices of order (notes/assumptions/4.md). -/
structure State where
  tbs : TableStore
  pot : PoseTracker
  twn : TileWindow
  mru : MarkUnit
  mgt : MotionGate
  rct : RunController
  rfx : ReflexUnit
  dau : DockUnit
  dli : DriveLink
  snp : SensePort
  evu : EventUnit
  pli : PlanLink
  choices : Nat
  pending : List Instr
  deriving DecidableEq, Repr

/-- The part's faults: none. The manual gives every command an effect in every state; a lost line is the run state
FAULT, which is a next state (R117). -/
inductive Fault where
  deriving DecidableEq, Repr

/-- Why a command is refused. -/
inductive Refusal where
  /-- Raised by `exec` alone, for a command whose meaning is not yet written; safe, since the machine stops. -/
  | notModelled (mnemonic : String)
  deriving DecidableEq, Repr

/-! ## After power-on -/

/-- A record with no edge and IMMEDIATE trust, as most defaults of R6 are. -/
def plainRecord (blocking : Bool) (floorCap : Nat) (brush : BrushState) : ResponseRecord :=
  { blocking := blocking, edge := false, floorCap := floorCap, brush := brush, trust := .immediate }

/-- Blocking, edge, floor cap 0, brush STOP, IMMEDIATE: the default of the edge classes, and OFF_MAP's fixed record (R6). -/
def edgeRecord : ResponseRecord :=
  { blocking := true, edge := true, floorCap := 0, brush := .stop, trust := .immediate }

/-- The default class response table (R6). -/
def defaultResponse : Vector ResponseRecord 16 :=
  #v[plainRecord false 300 .run, plainRecord false 200 .run, plainRecord false 150 .low, plainRecord false 120 .lift,
     plainRecord false 100 .lift, plainRecord false 120 .run, plainRecord false 80 .stop, plainRecord false 100 .run,
     plainRecord true 0 .stop, edgeRecord, edgeRecord, plainRecord true 0 .stop,
     plainRecord true 0 .stop, edgeRecord, plainRecord false 100 .lift, edgeRecord]

/-- The default learn table (R9). -/
def defaultLearn : LearnTable :=
  { cliff := some 13, drop := some 13, bump := some 12, stall := some 12, jam := some 14 }

/-- The default braking table (R10). -/
def defaultBraking : BrakingTable :=
  { limits := #v[0, 0, 40, 80, 120, 160, 200, 240, 280, 300, 300, 300, 300, 300, 300, 300], vclear := 300 }

/-- The default calibration record (R11). -/
def defaultCalibration : Calibration :=
  { tickLength := 512, trackWidth := 236, leadDistance := 170, lookAhead := 8, vMax := 350, vWheel := 450, vSpin := 150,
    controlPeriod := 10, cliffThreshold := 40, confirmDistance := 20, confirmTime := 300, confirmCreep := 40,
    backOffDistance := 50, backOffSpeed := 100, backOffTimeLimit := 1000,
    flForward := 150, flLeft := 90, frForward := 150, frLeft := -90,
    slForward := 60, slLeft := 150, srForward := 60, srLeft := -150,
    bumperOffset := 80, requestTimeout := 250, driveTimeout := 50, senseTimeout := 50, brushTimeout := 200,
    approachRadius := 1500, approachSpeed := 80, approachTurnSpeed := 60, beaconLostTime := 500,
    undockDistance := 300, blindLimit := 100, statusInterval := 0 }

/-- Every hazard input armed (R122). -/
def allArmed : Armed :=
  { bumperLeft := true, bumperRight := true, dropLeft := true, dropRight := true,
    cliff := { fl := true, fr := true, sl := true, sr := true },
    stallLeft := true, stallRight := true, jam := true }

/-- Every suspect record closed (R134). -/
def noSuspects : PerSensor (Option Measure) := { fl := none, fr := none, sl := none, sr := none }

/-- The pose record after either reset (R19). -/
def resetPose : Pose := { valid := false, level := 0, x := 0, y := 0, heading := 0 }

/-- The gate result after either reset, and of a computation with no source (R89, R101). -/
def stillResult : GateResult := { vc := 0, vlim := none, kStar := 0, scaled := false }

/-- The window after either reset (R58). -/
def emptyWindow : TileWindow := { slots := Vector.replicate 16 .empty, recency := [], unsolicited := 0 }

/-- The MRU after either reset (R77). -/
def emptyMarkUnit : MarkUnit := { reportQueue := [], markedOrder := [], dropped := 0 }

/-- The DAU's values after either reset and on leaving APPROACH, DOCKED or UNDOCKING (R143). -/
def idleDock : DockUnit :=
  { phase := .none, lastSector := none, beaconTimer := none, searchTurn := 0, contactCount := 0, idWait := 0,
    reverse := none }

/-- An event kind after power-on: flag clear, detail none, unmasked (R177). -/
def clearRecord : EventRecord := { flag := false, detail := .none, masked := false }

/-- The part right after power-on: every field at the value the manual gives, and the values that it does not give as
notes/assumptions/8.md and 9.md name them (R15, R17, R19, R20, R58, R77, R101, R104, R141, R143, R167, R177). -/
def State.reset : State :=
  { tbs := { response := defaultResponse, learn := defaultLearn, braking := defaultBraking, cal := defaultCalibration,
             dock := { level := 0, x := 0, y := 0, heading := 0, code := 0 } }
    pot := { pose := resetPose, history := [], timeCount := 0 }
    twn := emptyWindow
    mru := emptyMarkUnit
    mgt := { queue := [], current := none, completed := 0, starved := false, period := none, result := stillResult }
    rct := { state := .loading, modeQueue := [], creep := 1, pendingStep := false }
    rfx := { phase := .none, suspects := noSuspects, approachBumps := 0, armed := allArmed }
    dau := idleDock
    dli := { brushState := .stop, reservation := none, pendingBrush := none, lastWish := .stop, lastSetpoints := (0, 0),
             watch := .off, errors := 0, receiver := .hunting, leaving := none, waiting := [] }
    snp := { watch := .off, lastContact := false, errors := 0, receiver := .hunting }
    evu := { records := Vector.replicate 26 clearRecord, clearMode := .explicit }
    pli := { errors := 0, receiver := .hunting, leaving := none, events := [], retries := [], answers := [],
             requests := [], statusWaits := false, statusStart := 0 }
    choices := 0
    pending := [] }

end Sys2Proof.Machine
end

