-- ==== Sys2Proof/Machine/Flags.lean ====
section
/-! DEFINITION. The Event Unit: event flags, stored details and masks, and the EVENT frames that wait (R174, R175). -/

namespace Sys2Proof.Machine

/-- The number of an event kind, 0..25 (section 10.4). -/
def eventNumber : EventKind → Fin 26
  | .powerOn => 0
  | .restarted => 1
  | .configDefaulted => 2
  | .bump => 3
  | .cliff => 4
  | .cliffDiscounted => 5
  | .wheelDrop => 6
  | .lifted => 7
  | .stall => 8
  | .brushJam => 9
  | .brushNoAck => 10
  | .reflexAborted => 11
  | .tileLate => 12
  | .windowFull => 13
  | .poseEdge => 14
  | .poseLost => 15
  | .segmentOverflow => 16
  | .segmentsEmpty => 17
  | .modeLost => 18
  | .commandRefused => 19
  | .docked => 20
  | .dockFail => 21
  | .dockLost => 22
  | .driveLost => 23
  | .senseLost => 24
  | .markDropped => 25

/-- Every event kind, in kind number order. -/
def eventKinds : List EventKind :=
  [.powerOn, .restarted, .configDefaulted, .bump, .cliff, .cliffDiscounted, .wheelDrop, .lifted, .stall, .brushJam,
   .brushNoAck, .reflexAborted, .tileLate, .windowFull, .poseEdge, .poseLost, .segmentOverflow, .segmentsEmpty,
   .modeLost, .commandRefused, .docked, .dockFail, .dockLost, .driveLost, .senseLost, .markDropped]

/-- The event kind of a number, if it lies in 0..25 (R169). -/
def eventKindOf (n : Nat) : Option EventKind := eventKinds[n]?

/-- The record of a kind. -/
def EventUnit.record (e : EventUnit) (k : EventKind) : EventRecord := e.records[eventNumber k]

/-- The unit with the record of one kind replaced. -/
def EventUnit.withRecord (e : EventUnit) (k : EventKind) (r : EventRecord) : EventUnit :=
  { e with records := e.records.set (eventNumber k) r }

/-- The place that an EVENT frame carries: the pose record's, when the pose is valid (R174). -/
def Pose.place (p : Pose) : Option Place :=
  if p.valid then some { level := p.level, x := p.x, y := p.y, heading := p.heading } else none

/-- An EVENT frame is made to wait: a frame of the same kind that still waits takes the new occurrence and keeps its
place, otherwise the frame joins the end (R174). -/
def putEvent (f : EventFrame) (waiting : List EventFrame) : List EventFrame :=
  if waiting.any (fun w => w.kind == f.kind) then waiting.map (fun w => if w.kind == f.kind then f else w)
  else waiting ++ [f]

/-- An occurrence of an event kind: the flag is set and the detail stored; when the flag was clear and the kind is not
masked, an EVENT frame waits (R174). DEDUCED: a masked occurrence leaves a frame that already waits as it was
(notes/assumptions/19.md). -/
def raise (k : EventKind) (d : Detail) (s : State) : State :=
  { s with
    evu := s.evu.withRecord k { s.evu.record k with flag := true, detail := d }
    pli := if (s.evu.record k).flag || (s.evu.record k).masked then s.pli
           else { s.pli with
                  events := putEvent { kind := k, detail := d, time := s.pot.timeCount, place := s.pot.pose.place }
                    s.pli.events } }

/-- The flag of one kind cleared; its detail and mask stay (R175). -/
def EventUnit.clear (e : EventUnit) (k : EventKind) : EventUnit := e.withRecord k { e.record k with flag := false }

/-- Each listed flag cleared (R175). -/
def EventUnit.clearListed (e : EventUnit) (kinds : List EventKind) : EventUnit := kinds.foldl EventUnit.clear e

/-- Every flag cleared; details, masks and clear mode stay (R175, R177). -/
def EventUnit.clearAll (e : EventUnit) : EventUnit :=
  { e with records := e.records.map (fun r => { r with flag := false }) }

/-- The clear mode stored, the listed kinds masked and all others unmasked; flags and details stay (R175). -/
def EventUnit.setMasks (e : EventUnit) (mode : ClearMode) (kinds : List EventKind) : EventUnit :=
  { records := Vector.ofFn (fun n =>
      { e.records[n] with masked := kinds.any (fun k => eventNumber k == n) })
    clearMode := mode }

/-- The set flags' kinds with their stored details, in kind number order (R172). -/
def EventUnit.shown (e : EventUnit) : List (EventKind × Detail) :=
  (eventKinds.filter (fun k => (e.record k).flag)).map (fun k => (k, (e.record k).detail))

end Sys2Proof.Machine
end

