-- ==== Sys2Proof/Machine/Ops.lean ====
section
/-! DEFINITION. Operations that several blocks share: saturating counts, changes of run state with what each block does
at them, the discard of segments, and sending on the Drive Link. -/

namespace Sys2Proof.Machine

/-! ## Counts -/

/-- A count that stops at its largest value (the manual's "saturating"). -/
def countUp (most n : Nat) : Nat := min most (n + 1)

/-- The Plan Link frame-error count rises by one, saturating at 65 535 (R169). -/
def countPlanError (s : State) : State := { s with pli := { s.pli with errors := countUp 65535 s.pli.errors } }

/-- A line's error count rises by one, saturating at 65 535 (R166). -/
def countLineError : Line → State → State
  | .drive, s => { s with dli := { s.dli with errors := countUp 65535 s.dli.errors } }
  | .sense, s => { s with snp := { s.snp with errors := countUp 65535 s.snp.errors } }

/-! ## Per-sensor values -/

/-- The value of one sensor. -/
def PerSensor.get {α : Type} (p : PerSensor α) : CliffSensor → α
  | .fl => p.fl
  | .fr => p.fr
  | .sl => p.sl
  | .sr => p.sr

/-- The value of one sensor replaced. -/
def PerSensor.set {α : Type} (p : PerSensor α) (x : CliffSensor) (v : α) : PerSensor α :=
  match x with
  | .fl => { p with fl := v }
  | .fr => { p with fr := v }
  | .sl => { p with sl := v }
  | .sr => { p with sr := v }

/-- Every sensor's value mapped. -/
def PerSensor.map {α β : Type} (f : α → β) (p : PerSensor α) : PerSensor β :=
  { fl := f p.fl, fr := f p.fr, sl := f p.sl, sr := f p.sr }

/-- Whether any suspect record is active (R96). -/
def anySuspect (p : PerSensor (Option Measure)) : Bool :=
  p.fl.isSome || p.fr.isSome || p.sl.isSome || p.sr.isSome

/-! ## Run states (section 6.1) -/

/-- The four states that run segments (R82, R89) and that arm the hazard inputs when entered from outside (R123). -/
def RunState.moving : RunState → Bool
  | .run => true
  | .creep => true
  | .step => true
  | .homing => true
  | _ => false

/-- The states in which a suspect record may stay active (R136). -/
def RunState.keepsSuspicion : RunState → Bool
  | .approach => true
  | .undocking => true
  | r => r.moving

/-- The states whose end returns the DAU to its idle values (R143). -/
def RunState.docking : RunState → Bool
  | .approach => true
  | .docked => true
  | .undocking => true
  | _ => false

/-- A request on the run state, carried out at once, with what each block does at a change of state: the pending-step
flag is cleared away from STEP (R114), a reflex ends away from REFLEX (R116), suspect records close (R136), the hazard
inputs are armed on entry to a moving state from outside (R123), and the DAU returns to its idle values on leaving
APPROACH, DOCKED or UNDOCKING (R143). -/
def changeRun (next : RunState) (s : State) : State :=
  { s with
    rct := { s.rct with state := next, pendingStep := s.rct.pendingStep && next == .step }
    rfx := { s.rfx with
      phase := if next = .reflex then s.rfx.phase else .none
      suspects := if next.keepsSuspicion then s.rfx.suspects else noSuspects
      armed := if next.moving && !s.rct.state.moving then allArmed else s.rfx.armed }
    dau := if s.rct.state.docking && s.rct.state != next then idleDock else s.dau }

/-- The number of segments that a discard drops, the current one included, 0..9 (R86). -/
def discardCount (s : State) : Nat := s.mgt.queue.length + (if s.mgt.current.isSome then 1 else 0)

/-- The segment queue is emptied and the current segment cleared; any starvation ends (R86). -/
def discardSegments (s : State) : State := { s with mgt := { s.mgt with queue := [], current := none, starved := false } }

/-! ## The Drive Link transmitter (R157) -/

/-- The DLI comes to send a frame: it begins to leave when the transmitter is free, and waits behind the others
otherwise (R157). -/
def sendDrive (f : DriveFrame) (s : State) : State :=
  { s with
    dli := match s.dli.leaving with
      | none => { s.dli with leaving := some f }
      | some _ => { s.dli with waiting := s.dli.waiting ++ [f] } }

/-- A setpoint frame is sent, and its pair becomes the last setpoints (R157). -/
def sendSetpoint (vL vR : Int) (s : State) : State :=
  sendDrive (.setpoint vL vR) { s with dli := { s.dli with lastSetpoints := (vL, vR) } }

/-- One zero setpoint frame at once, outside the control period (R158). -/
def sendZero (s : State) : State := sendSetpoint 0 0 s

/-- A change-state command is sent: the brush is reserved for it from now and the pending state cleared (R161). -/
def sendBrushCommand (b : BrushState) (s : State) : State :=
  sendDrive (.brush (some b))
    { s with dli := { s.dli with
        reservation := some { commanded := b, sentAt := s.pot.timeCount }, pendingBrush := none } }

/-! ## Entries that discard the segments (R116, R117, R118) -/

/-- The entry to a state that discards the segments: REFLEX, LIFTED, FAULT or APPROACH (R86, R116). -/
def enterDiscarding (next : RunState) (s : State) : State := changeRun next (discardSegments s)

/-- FAULT at the loss of a line; in FAULT already, the state stays and nothing more is discarded (R117). -/
def enterFault (s : State) : State := if s.rct.state = .fault then s else enterDiscarding .fault s

end Sys2Proof.Machine
end

