-- ==== Sys2Proof/WellFormed.lean ====
section
/-! DEFINITION. Which commands carry operands that a good frame of their kind can carry (R166, R169, R180, R181).
A command whose operands fail this check stands for a bad frame, and the machine treats it so. -/

namespace Sys2Proof

/-- A key on the map: level 0..3, tile column and row 0..63 (R36, R169). -/
def TileKey.onMap (k : TileKey) : Bool := k.level ≤ 3 && k.col ≤ 63 && k.row ≤ 63

/-- A value that a signed two-byte field carries (R181). -/
def fitsSigned16 (v : Int) : Bool := -32768 ≤ v && v ≤ 32767

/-- A value that an unsigned two-byte field carries (R181). -/
def fits16 (n : Nat) : Bool := n ≤ 65535

/-- A value that a one-byte field carries. -/
def fits8 (n : Nat) : Bool := n ≤ 255

/-- An absent field, or a present one that passes `p`. -/
def optionally (p : Nat → Bool) : Option Nat → Bool
  | none => true
  | some n => p n

/-- The contents of a well-formed TILE: a UNIFORM class lies in 0..15 (R50, R169). -/
def TileContents.wellFormed : TileContents → Bool
  | .full _ => true
  | .uniform c => c ≤ 15

/-- The fields of one response entry fit their bytes (R180). -/
def ResponseEntry.wellFormed (e : ResponseEntry) : Bool :=
  fits8 e.record && fits8 e.blocking && fits8 e.edge && fits16 e.floorCap && fits8 e.brush && fits8 e.trust

/-- The fields of one learn entry fit their bytes (R180). -/
def LearnEntry.wellFormed (e : LearnEntry) : Bool := fits8 e.kind && fits8 e.cls

/-- A good sense frame: fields in their bytes, beacon code and dock ID in 0..15, and a dock ID only with the dock
contact (R166, R181). -/
def SenseFrame.wellFormed (f : SenseFrame) : Bool :=
  fits8 f.age && (-128 ≤ f.yaw && f.yaw ≤ 127)
    && fits8 f.cliffFL && fits8 f.cliffFR && fits8 f.cliffSL && fits8 f.cliffSR
    && (match f.beacon with | none => true | some b => decide (b.code ≤ 15))
    && optionally (· ≤ 15) f.dockId && (f.dockId.isNone || f.contact)

/-- The operands are ones that a good frame of the command's kind carries; a command that is no frame is always
well formed (R166, R169, R180). -/
def Instr.wellFormed : Instr → Bool
  | .segment vL vR _ limit brush tag =>
    fitsSigned16 vL && fitsSigned16 vR && fits16 limit && optionally fits8 brush && optionally fits16 tag
  | .mode _ factor => fits8 factor
  | .tile key generation contents => key.onMap && fits8 generation && contents.wellFormed
  | .tileDrop key => key.onMap
  | .setPose level x y heading => fits8 level && fits16 x && fits16 y && fits16 heading
  | .loadResponse entries => 1 ≤ entries.length && entries.length ≤ 16 && entries.all ResponseEntry.wellFormed
  | .loadLearn entries => 1 ≤ entries.length && entries.length ≤ 5 && entries.all LearnEntry.wellFormed
  | .loadBraking limits vclear => limits.length == 16 && limits.all fits16 && fits16 vclear
  | .loadCalibration values => values.length == 35 && values.all fitsSigned16
  | .loadDock level x y heading code => fits16 level && fits16 x && fits16 y && fits16 heading && fits16 code
  | .eventMask _ kinds => kinds.length ≤ 249
  | .eventClear kinds => kinds.length ≤ 250
  | .odometryReply tL tR _ _ => (-2047 ≤ tL && tL ≤ 2047) && (-2047 ≤ tR && tR ≤ 2047)
  | .senseFrame frame => frame.wellFormed
  | .powerOn => true
  | .configReadEnd _ => true
  | .start => true
  | .statusRequest => true
  | .forceEvent _ => true
  | .restart => true
  | .planBadFrame => true
  | .brushStatus _ _ => true
  | .linkBadFrame _ => true
  | .controlPeriodExpiry => true
  | .requestTimeout _ => true
  | .brushTimeout => true
  | .linkTimeout _ => true
  | .backOffTimeLimit => true
  | .lostBeaconExpiry => true
  | .bumpReverseTimeLimit => true
  | .undockTimeLimit => true
  | .statusInterval => true
  | .planTransmitterFree => true
  | .driveTransmitterFree => true

end Sys2Proof
end

