-- ==== Sys2Proof/Machine/Operands.lean ====
section
/-! DEFINITION. What a command's operands become when they are taken: the clamping of segments, Creep factors, poses and
table values, with the answer of each table load (R8, R9, R10, R12, R14, R31, R32, R79, R108). -/

namespace Sys2Proof.Machine

/-! ## Codes of R180 -/

/-- The brush state of a code RUN 0, LOW 1, LIFT 2, STOP 3; any other value is stored as STOP (R8, R79, R180). -/
def brushAction (code : Nat) : BrushState :=
  match code with
  | 0 => .run
  | 1 => .low
  | 2 => .lift
  | _ => .stop

/-- The cliff trust of a code IMMEDIATE 0, CONFIRM 1; any other value is stored as IMMEDIATE (R8, R180). -/
def trustOf (code : Nat) : CliffTrust :=
  match code with
  | 1 => .confirm
  | _ => .immediate

/-! ## Segments and mode commands -/

/-- The segment record of a SEGMENT frame (R79). -/
def segmentRecord (vL vR : Int) (kind : LimitKind) (limit : Nat) (brush : Option Nat) (tag : Option Nat) : Segment :=
  { vL := clampInt (-600) 600 vL
    vR := clampInt (-600) 600 vR
    kind := kind
    limit := match kind with
      | .dist => max 1 (min 10000 limit)
      | .time => max 10 (min 10000 limit)
    brush := brush.map brushAction
    tag := tag }

/-- The queued form of a mode command: a Creep's factor clamped to 2..8, no factor for the other kinds (R108). -/
def modeCommand (kind : ModeKind) (factor : Nat) : ModeCommand :=
  match kind with
  | .creep => { kind := .creep, factor := max 2 (min 8 factor) }
  | k => { kind := k, factor := 0 }

/-! ## Set-Pose (R31, R32) -/

/-- A given level above 3 is taken as 3 (R31). -/
def clampLevel (level : Nat) : Nat := min 3 level

/-- A given coordinate in mm, in sixteenths and held to the level (R32). -/
def givenPosition (mm : Nat) : Nat := min positionMax (mm * 16)

/-- A given heading above 4095 is stored as 4095 (R32). -/
def clampHeading (heading : Nat) : Nat := min 4095 heading

/-! ## Response table loads (R8) -/

/-- The record that an entry stores (R8). -/
def entryRecord (e : ResponseEntry) : ResponseRecord :=
  { blocking := e.blocking != 0
    edge := e.edge != 0
    floorCap := min 500 e.floorCap
    brush := brushAction e.brush
    trust := trustOf e.trust }

/-- The entry is skipped: it names record 15, or a number above, which is clamped to 15 (R8; DEDUCED for the numbers
above 15, notes/assumptions/21.md). -/
def entrySkipped (e : ResponseEntry) : Bool := 15 ≤ e.record

/-- The entry is skipped, or some value of it is stored other than as given (R8). -/
def entryMoved (e : ResponseEntry) : Bool :=
  entrySkipped e || 500 < e.floorCap || 1 < e.blocking || 1 < e.edge || 3 < e.brush || 1 < e.trust

/-- The table after one entry (R8). -/
def applyEntry (t : Vector ResponseRecord 16) (e : ResponseEntry) : Vector ResponseRecord 16 :=
  if h : e.record < 15 then t.set e.record (entryRecord e) else t

/-- The answer of a load, CLAMPED when something was moved or skipped (R7). -/
def answerOf (moved : Bool) : Answer := if moved then .clamped else .accepted

/-! ## Learn table loads (R9) -/

/-- The stored form of a learn class value: 0..14 the class, any other NONE (R9). -/
def learnClass (cls : Nat) : Option CellClass := if h : cls < 15 then some ⟨cls, by omega⟩ else none

/-- The table after one entry; an event kind that is not one of the five is skipped (R9). -/
def applyLearn (t : LearnTable) (e : LearnEntry) : LearnTable :=
  match e.kind with
  | 0 => { t with cliff := learnClass e.cls }
  | 1 => { t with drop := learnClass e.cls }
  | 2 => { t with bump := learnClass e.cls }
  | 3 => { t with stall := learnClass e.cls }
  | 4 => { t with jam := learnClass e.cls }
  | _ => t

/-- The entry is skipped, or stored as NONE from a value 15..254 (R9). -/
def learnMoved (e : LearnEntry) : Bool := 4 < e.kind || (15 ≤ e.cls && e.cls != 255)

/-! ## Braking table loads (R10) -/

/-- The entries B[1].. of a list, each pulled down to the stored entry above it, the last to `top` (R10 steps 2, 3). -/
def pullDown (top : Nat) : List Nat → List Nat
  | [] => []
  | b :: rest =>
    let above := pullDown top rest
    min b (above.headD top) :: above

/-- The braking table stored from the given values (R10). -/
def brakingTable (limits : List Nat) (vclear : Nat) : BrakingTable :=
  let stored := pullDown (min vclear 500) limits
  { limits := Vector.ofFn (fun k => stored.getD k 0), vclear := min vclear 500 }

/-- Some stored value differs from the value given for it (R10). -/
def brakingMoved (limits : List Nat) (vclear : Nat) : Bool :=
  500 < vclear || pullDown (min vclear 500) limits != limits

/-! ## Calibration (R11, R12) -/

/-- The ranges of the thirty-five calibration values, in the order of R11. -/
def calibrationRanges : List (Int × Int) :=
  [(64, 4096), (150, 400), (0, 250), (1, 16), (50, 500), (50, 600), (20, 300), (5, 20), (1, 254), (5, 100), (50, 1000),
   (10, 100), (10, 200), (20, 200), (200, 3000),
   (-250, 250), (-250, 250), (-250, 250), (-250, 250), (-250, 250), (-250, 250), (-250, 250), (-250, 250),
   (0, 200), (20, 2000), (20, 500), (20, 500), (50, 1000), (300, 4000), (20, 200), (20, 200), (100, 2000), (50, 1000),
   (0, 300), (0, 5000)]

/-- Each value held to its range (R12). -/
def clampValues (values : List Int) : List Int :=
  List.zipWith (fun r v => clampInt r.1 r.2 v) calibrationRanges values

/-- The record of thirty-five values in the order of R11. -/
def calibrationOf (values : List Int) : Calibration :=
  let at_ (n : Nat) : Int := values.getD n 0
  let nat (n : Nat) : Nat := (at_ n).toNat
  { tickLength := nat 0, trackWidth := nat 1, leadDistance := nat 2, lookAhead := nat 3, vMax := nat 4, vWheel := nat 5,
    vSpin := nat 6, controlPeriod := nat 7, cliffThreshold := nat 8, confirmDistance := nat 9, confirmTime := nat 10,
    confirmCreep := nat 11, backOffDistance := nat 12, backOffSpeed := nat 13, backOffTimeLimit := nat 14,
    flForward := at_ 15, flLeft := at_ 16, frForward := at_ 17, frLeft := at_ 18,
    slForward := at_ 19, slLeft := at_ 20, srForward := at_ 21, srLeft := at_ 22,
    bumperOffset := nat 23, requestTimeout := nat 24, driveTimeout := nat 25, senseTimeout := nat 26,
    brushTimeout := nat 27, approachRadius := nat 28, approachSpeed := nat 29, approachTurnSpeed := nat 30,
    beaconLostTime := nat 31, undockDistance := nat 32, blindLimit := nat 33, statusInterval := nat 34 }

/-- The calibration record stored from given values (R12). -/
def storedCalibration (values : List Int) : Calibration := calibrationOf (clampValues values)

/-- Some value lies outside its range (R12). -/
def calibrationMoved (values : List Int) : Bool := clampValues values != values

/-! ## The configuration memory (R15) -/

/-- The format byte of a calibration record in the configuration memory (R15). -/
def formatByte : Byte := 0xC2

/-- The number that two bytes hold, the more significant first. -/
def word16 (hi lo : Byte) : Nat := hi.toNat * 256 + lo.toNat

/-- The signed number that two bytes hold, in two's complement, the more significant byte first (R15, R181). -/
def signed16 (hi lo : Byte) : Int := (hi ++ lo : BitVec 16).toInt

/-- The value numbered `n`, from 0, of the memory's seventy bytes: the sensor offsets, 15..22, signed and the others
unsigned (R15). -/
def memoryValue (bytes : List Byte) (n : Nat) : Int :=
  let hi := bytes.getD (2 * n) 0
  let lo := bytes.getD (2 * n + 1) 0
  if 15 ≤ n && n ≤ 22 then signed16 hi lo else word16 hi lo

/-- The thirty-five values of the memory's seventy bytes (R15). -/
def memoryValues (bytes : Vector Byte 70) : List Int := (List.range 35).map (memoryValue bytes.toList)

/-! ## The dock record (R14) -/

/-- The dock record stored from given values (R14). -/
def dockRecord (level x y heading code : Nat) : DockRecord :=
  { level := min 3 level, x := min 51199 x, y := min 51199 y, heading := min 4095 heading, code := min 15 code }

/-- Some value of a dock load was moved (R14). -/
def dockMoved (level x y heading code : Nat) : Bool :=
  3 < level || 51199 < x || 51199 < y || 4095 < heading || 15 < code

end Sys2Proof.Machine
end

