-- ==== Sys2Proof/Decode.lean ====
section
/-! DEFINITION. From bytes to commands and back: the frame envelope and its CRC, the judgement of a received frame, and the
encoder of the frames that the far ends send (chapter 11). The rows of spec/opcode_table.json give no bits, so a word of
the table spells no command. -/

namespace Sys2Proof

open Sys2Proof.Machine (word16 signed16 eventKindOf eventNumber)

/-! ## The envelope (R179) -/

/-- The sync byte. -/
def syncByte : Byte := 0xA5

/-- One bit's shift of the CRC register (R179). -/
def crcShift (r : BitVec 16) : BitVec 16 := if r.msb then (r <<< 1) ^^^ 0x1021 else r <<< 1

/-- One byte taken into the CRC register: XORed into its upper eight bits, then eight shifts (R179). -/
def crcByte (r : BitVec 16) (b : Byte) : BitVec 16 :=
  crcShift (crcShift (crcShift (crcShift (crcShift (crcShift (crcShift (crcShift
    (r ^^^ (b.setWidth 16 <<< 8)))))))))

/-- The CRC-16 of a list of bytes, from the start value 0xFFFF (R179). -/
def crc16 (bytes : List Byte) : BitVec 16 := bytes.foldl crcByte 0xFFFF

/-- The two bytes of a 16-bit number, the more significant first (R181). -/
def bytes16 (w : BitVec 16) : List Byte := [(w >>> 8).setWidth 8, w.setWidth 8]

/-- The bytes of a frame after its sync byte: length, kind, body and CRC (R179). -/
def frameBytes (kind : Byte) (body : List Byte) : List Byte :=
  let counted := BitVec.ofNat 8 body.length :: kind :: body
  counted ++ bytes16 (crc16 counted)

/-- A whole frame as it goes over a line (R179). -/
def envelope (kind : Byte) (body : List Byte) : List Byte := syncByte :: frameBytes kind body

/-- The kind and body of the bytes after a sync byte, when the length byte and the CRC bytes are right (R179). -/
def openEnvelope (bytes : List Byte) : Option (Byte × List Byte) :=
  match bytes with
  | len :: kind :: rest =>
    if rest.length = len.toNat + 2
        && rest.drop len.toNat == bytes16 (crc16 (len :: kind :: rest.take len.toNat)) then
      some (kind, rest.take len.toNat)
    else none
  | _ => none

/-! ## Field helpers (R181) -/

/-- The unsigned big-endian 16-bit fields of a list of bytes; none for an odd number of bytes. -/
def words : List Byte → Option (List Nat)
  | [] => some []
  | [_] => none
  | hi :: lo :: rest => (words rest).map (word16 hi lo :: ·)

/-- The signed big-endian 16-bit fields of a list of bytes; none for an odd number of bytes. -/
def signedWords : List Byte → Option (List Int)
  | [] => some []
  | [_] => none
  | hi :: lo :: rest => (signedWords rest).map (signed16 hi lo :: ·)

/-- The key in three bytes. -/
def keyOf (level col row : Byte) : TileKey := { level := level.toNat, col := col.toNat, row := row.toNat }

/-- The class of a cell index in 128 packed bytes: byte k holds cell 2k in its low four bits and cell 2k + 1 in its high
four bits (R181). -/
def packedClass (bytes : List Byte) (i : Nat) : CellClass :=
  let b := (bytes.getD (i / 2) 0).toNat
  Fin.ofNat 16 (if i % 2 = 0 then b else b / 16)

/-- The 256 classes of 128 packed bytes (R181). -/
def unpackCells (bytes : List Byte) : Cells := Vector.ofFn (fun i => packedClass bytes i)

/-- The 128 packed bytes of 256 classes (R181). -/
def packCells (cells : Cells) : List Byte :=
  List.ofFn (fun k : Fin 128 => BitVec.ofNat 8 (cells[2 * k.val].val + 16 * cells[2 * k.val + 1].val))

/-- The mode command of a code (R180). -/
def modeKindOf (code : Byte) : Option ModeKind :=
  match code.toNat with
  | 0 => some .hold
  | 1 => some .resume
  | 2 => some .creep
  | 3 => some .step
  | 4 => some .returnHome
  | 5 => some .undock
  | 6 => some .stop
  | _ => none

/-- The brush state of a code RUN 0 .. REVERSE 4 (R180). -/
def brushStateOf (code : Byte) : Option BrushState :=
  match code.toNat with
  | 0 => some .run
  | 1 => some .low
  | 2 => some .lift
  | 3 => some .stop
  | 4 => some .reverse
  | _ => none

/-- The limit kind of a code (R180). -/
def limitKindOf (code : Byte) : Option LimitKind :=
  match code.toNat with
  | 0 => some .dist
  | 1 => some .time
  | _ => none

/-- The clear mode of a code (R180). -/
def clearModeOf (code : Byte) : Option ClearMode :=
  match code.toNat with
  | 0 => some .explicit
  | 1 => some .onStatus
  | _ => none

/-- The kinds that a list of bytes names; none when a number lies outside 0..25 (R169). -/
def kindsOf : List Byte → Option (List EventKind)
  | [] => some []
  | b :: rest =>
    match eventKindOf b.toNat, kindsOf rest with
    | some k, some ks => some (k :: ks)
    | _, _ => none

/-- The response entries of a list of bytes, seven each (R180). -/
def responseEntries : List Byte → Option (List ResponseEntry)
  | [] => some []
  | r :: b :: e :: hi :: lo :: a :: t :: rest =>
    (responseEntries rest).map
      ({ record := r.toNat, blocking := b.toNat, edge := e.toNat, floorCap := word16 hi lo, brush := a.toNat,
         trust := t.toNat } :: ·)
  | _ => none

/-- The learn entries of a list of bytes, two each (R180). -/
def learnEntries : List Byte → Option (List LearnEntry)
  | [] => some []
  | k :: c :: rest => (learnEntries rest).map ({ kind := k.toNat, cls := c.toNat } :: ·)
  | _ => none

/-! ## Bodies (R180, R181) -/

/-- The optional fields of a SEGMENT: brush request and tag, by the presence bits 0 and 1 (R181). -/
def segmentOptions (presence : Byte) (rest : List Byte) : Option (Option Nat × Option Nat) :=
  match presence.getLsbD 0, presence.getLsbD 1, rest with
  | false, false, [] => some (none, none)
  | true, false, [b] => some (some b.toNat, none)
  | false, true, [hi, lo] => some (none, some (word16 hi lo))
  | true, true, [b, hi, lo] => some (some b.toNat, some (word16 hi lo))
  | _, _, _ => none

/-- A SEGMENT body (R181). -/
def segmentBody : List Byte → Option Instr
  | l1 :: l0 :: r1 :: r0 :: kind :: v1 :: v0 :: presence :: rest =>
    match limitKindOf kind, segmentOptions presence rest with
    | some k, some (brush, tag) => some (.segment (signed16 l1 l0) (signed16 r1 r0) k (word16 v1 v0) brush tag)
    | _, _ => none
  | _ => none

/-- A MODE body: command kind and Creep factor (R180). -/
def modeBody : List Byte → Option Instr
  | [kind, factor] => (modeKindOf kind).map (fun k => .mode k factor.toNat)
  | _ => none

/-- A TILE body, FULL or UNIFORM (R181). -/
def tileBody : List Byte → Option Instr
  | level :: col :: row :: generation :: form :: rest =>
    if form = 0 && rest.length == 128 then
      some (.tile (keyOf level col row) generation.toNat (.full (unpackCells rest)))
    else if form = 1 then
      match rest with
      | [c] => some (.tile (keyOf level col row) generation.toNat (.uniform c.toNat))
      | _ => none
    else none
  | _ => none

/-- A TILE_DROP body (R180). -/
def tileDropBody : List Byte → Option Instr
  | [level, col, row] => some (.tileDrop (keyOf level col row))
  | _ => none

/-- A SET_POSE body: level, then x, y and the heading (R180). -/
def setPoseBody : List Byte → Option Instr
  | [level, x1, x0, y1, y0, h1, h0] =>
    some (.setPose level.toNat (word16 x1 x0) (word16 y1 y0) (word16 h1 h0))
  | _ => none

/-- A braking load's values: B[1] to B[16] and Vclear (R180). -/
def brakingValues : Option (List Nat) → Option Instr
  | some values =>
    if values.length = 17 then some (.loadBraking (values.take 16) (values.getD 16 0)) else none
  | none => none

/-- A dock load's values (R180). -/
def dockValues : Option (List Nat) → Option Instr
  | some [level, x, y, heading, code] => some (.loadDock level x y heading code)
  | _ => none

/-- A LOAD_TABLE body: the selector, then a rest that fits it (R180). -/
def loadBody : List Byte → Option Instr
  | selector :: rest =>
    match selector.toNat with
    | 0 => (responseEntries rest).map .loadResponse
    | 1 => (learnEntries rest).map .loadLearn
    | 2 => brakingValues (words rest)
    | 3 => (signedWords rest).map .loadCalibration
    | 4 => dockValues (words rest)
    | _ => none
  | [] => none

/-- An EVENT_MASK body: the clear mode, then the masked kinds (R180). -/
def eventMaskBody : List Byte → Option Instr
  | mode :: rest =>
    match clearModeOf mode, kindsOf rest with
    | some m, some ks => some (.eventMask m ks)
    | _, _ => none
  | [] => none

/-- A FORCE_EVENT body: one kind (R180). -/
def forceEventBody : List Byte → Option Instr
  | [b] => (eventKindOf b.toNat).map .forceEvent
  | _ => none

/-- A command whose frame has no body (R180). -/
def emptyBody (i : Instr) : List Byte → Option Instr
  | [] => some i
  | _ => none

/-- The command of a Plan Link frame's kind and body, by the kinds that the navigation processor sends (R180). -/
def planCommand (kind : Byte) (body : List Byte) : Option Instr :=
  match kind.toNat with
  | 0x01 => segmentBody body
  | 0x02 => emptyBody .start body
  | 0x03 => modeBody body
  | 0x04 => tileBody body
  | 0x05 => tileDropBody body
  | 0x06 => setPoseBody body
  | 0x07 => loadBody body
  | 0x08 => emptyBody .statusRequest body
  | 0x09 => eventMaskBody body
  | 0x0A => (kindsOf body).map .eventClear
  | 0x0B => forceEventBody body
  | 0x0C => emptyBody .restart body
  | _ => none

/-- An odometry reply body (R181). -/
def odometryBody : List Byte → Option Instr
  | [l1, l0, r1, r0, flags] =>
    some (.odometryReply (signed16 l1 l0) (signed16 r1 r0) (flags.getLsbD 0) (flags.getLsbD 1))
  | _ => none

/-- A brush status body: current state and jam flag. DESIGN CHOICE: any jam byte but 0 is a set flag
(notes/assumptions/20.md). -/
def brushStatusBody : List Byte → Option Instr
  | [state, jam] => (brushStateOf state).map (fun b => .brushStatus b (jam != 0))
  | _ => none

/-- The command of a Drive Link frame's kind and body (R180). -/
def driveCommand (kind : Byte) (body : List Byte) : Option Instr :=
  match kind.toNat with
  | 0x31 => odometryBody body
  | 0x32 => brushStatusBody body
  | _ => none

/-- A beacon byte: bit 7 left seen, bit 6 centre seen, bit 5 right seen, bits 0..4 the code (R181). -/
def beaconOf (b : Byte) : Beacon :=
  { left := b.getLsbD 7, centre := b.getLsbD 6, right := b.getLsbD 5, code := b.toNat % 32 }

/-- The optional fields of a sense frame, by bits 5 and 6 of the contacts byte (R181). -/
def senseOptions (contacts : Byte) (rest : List Byte) : Option (Option Beacon × Option Nat) :=
  match contacts.getLsbD 5, contacts.getLsbD 6, rest with
  | false, false, [] => some (none, none)
  | true, false, [b] => some (some (beaconOf b), none)
  | false, true, [d] => some (none, some d.toNat)
  | true, true, [b, d] => some (some (beaconOf b), some d.toNat)
  | _, _, _ => none

/-- A sense frame body (R181). -/
def senseBody : List Byte → Option Instr
  | age :: yaw :: fl :: fr :: sl :: sr :: contacts :: rest =>
    (senseOptions contacts rest).map (fun o => .senseFrame
      { age := age.toNat, yaw := yaw.toInt, cliffFL := fl.toNat, cliffFR := fr.toNat, cliffSL := sl.toNat,
        cliffSR := sr.toNat, bumperLeft := contacts.getLsbD 0, bumperRight := contacts.getLsbD 1,
        dropLeft := contacts.getLsbD 2, dropRight := contacts.getLsbD 3, contact := contacts.getLsbD 4,
        beacon := o.1, dockId := o.2 })
  | _ => none

/-- The command of a Sense Port frame's kind and body (R180). -/
def senseCommand (kind : Byte) (body : List Byte) : Option Instr :=
  match kind.toNat with
  | 0x41 => senseBody body
  | _ => none

/-! ## The judgement of a received frame (R166, R169) -/

/-- The command that a frame stands for: the one its kind and body give, when the envelope is right and the fields lie
in their ranges, and `bad` otherwise (R166, R169). -/
def judgeFrame (command : Byte → List Byte → Option Instr) (bad : Instr) (bytes : List Byte) : Instr :=
  match openEnvelope bytes with
  | none => bad
  | some (kind, body) =>
    match command kind body with
    | none => bad
    | some i => if i.wellFormed then i else bad

/-- The command of the bytes after a sync byte on the Plan Link (R169). -/
def decodePlan (bytes : List Byte) : Instr := judgeFrame planCommand .planBadFrame bytes

/-- The command of the bytes after a sync byte on the Drive Link (R166). -/
def decodeDrive (bytes : List Byte) : Instr := judgeFrame driveCommand (.linkBadFrame .drive) bytes

/-- The command of the bytes after a sync byte on the Sense Port (R166). -/
def decodeSense (bytes : List Byte) : Instr := judgeFrame senseCommand (.linkBadFrame .sense) bytes

/-! ## The encoder (R180, R181) -/

/-- The byte of a number. -/
def byteOf (n : Nat) : Byte := BitVec.ofNat 8 n

/-- The two bytes of an unsigned 16-bit field. -/
def wordBytes (n : Nat) : List Byte := bytes16 (BitVec.ofNat 16 n)

/-- The two bytes of a signed 16-bit field. -/
def signedBytes (v : Int) : List Byte := bytes16 (BitVec.ofInt 16 v)

/-- The code of a mode command (R180). -/
def modeCode : ModeKind → Nat
  | .hold => 0
  | .resume => 1
  | .creep => 2
  | .step => 3
  | .returnHome => 4
  | .undock => 5
  | .stop => 6

/-- The code of a brush state (R180). -/
def brushCode : BrushState → Nat
  | .run => 0
  | .low => 1
  | .lift => 2
  | .stop => 3
  | .reverse => 4

/-- The code of a limit kind (R180). -/
def limitCode : LimitKind → Nat
  | .dist => 0
  | .time => 1

/-- The code of a clear mode (R180). -/
def clearModeCode : ClearMode → Nat
  | .explicit => 0
  | .onStatus => 1

/-- A bit of a byte at a place. -/
def bitAt (b : Bool) (place : Nat) : Nat := if b then 2 ^ place else 0

/-- The bytes of a key. -/
def keyBytes (k : TileKey) : List Byte := [byteOf k.level, byteOf k.col, byteOf k.row]

/-- The number of an event kind as a byte. -/
def kindByte (k : EventKind) : Byte := byteOf (eventNumber k).val

/-- The body bytes of a response entry. -/
def responseBytes (e : ResponseEntry) : List Byte :=
  [byteOf e.record, byteOf e.blocking, byteOf e.edge] ++ wordBytes e.floorCap ++ [byteOf e.brush, byteOf e.trust]

/-- The beacon byte (R181). -/
def beaconByte (b : Beacon) : Byte := byteOf (bitAt b.left 7 + bitAt b.centre 6 + bitAt b.right 5 + b.code)

/-- The contacts byte of a sense frame (R181). -/
def contactsByte (f : SenseFrame) : Byte :=
  byteOf (bitAt f.bumperLeft 0 + bitAt f.bumperRight 1 + bitAt f.dropLeft 2 + bitAt f.dropRight 3 + bitAt f.contact 4
    + bitAt f.beacon.isSome 5 + bitAt f.dockId.isSome 6)

/-- The kind and body of the frame that carries a command, for the commands that a frame carries (R180, R181). -/
def encodeBody : Instr → Option (Byte × List Byte)
  | .segment vL vR kind limit brush tag =>
    some (0x01, signedBytes vL ++ signedBytes vR ++ [byteOf (limitCode kind)] ++ wordBytes limit
      ++ [byteOf (bitAt brush.isSome 0 + bitAt tag.isSome 1)] ++ (brush.map byteOf).toList
      ++ (tag.elim [] wordBytes))
  | .start => some (0x02, [])
  | .mode kind factor => some (0x03, [byteOf (modeCode kind), byteOf factor])
  | .tile key generation (.full cells) => some (0x04, keyBytes key ++ [byteOf generation, 0] ++ packCells cells)
  | .tile key generation (.uniform c) => some (0x04, keyBytes key ++ [byteOf generation, 1, byteOf c])
  | .tileDrop key => some (0x05, keyBytes key)
  | .setPose level x y heading => some (0x06, byteOf level :: (wordBytes x ++ wordBytes y ++ wordBytes heading))
  | .loadResponse entries => some (0x07, 0 :: entries.flatMap responseBytes)
  | .loadLearn entries => some (0x07, 1 :: entries.flatMap (fun e => [byteOf e.kind, byteOf e.cls]))
  | .loadBraking limits vclear => some (0x07, 2 :: (limits.flatMap wordBytes ++ wordBytes vclear))
  | .loadCalibration values => some (0x07, 3 :: values.flatMap signedBytes)
  | .loadDock level x y heading code => some (0x07, 4 :: [level, x, y, heading, code].flatMap wordBytes)
  | .statusRequest => some (0x08, [])
  | .eventMask mode kinds => some (0x09, byteOf (clearModeCode mode) :: kinds.map kindByte)
  | .eventClear kinds => some (0x0A, kinds.map kindByte)
  | .forceEvent kind => some (0x0B, [kindByte kind])
  | .restart => some (0x0C, [])
  | .odometryReply tL tR stallLeft stallRight =>
    some (0x31, signedBytes tL ++ signedBytes tR ++ [byteOf (bitAt stallLeft 0 + bitAt stallRight 1)])
  | .brushStatus state jam => some (0x32, [byteOf (brushCode state), byteOf (bitAt jam 0)])
  | .senseFrame f =>
    some (0x41, [byteOf f.age, BitVec.ofInt 8 f.yaw, byteOf f.cliffFL, byteOf f.cliffFR, byteOf f.cliffSL,
      byteOf f.cliffSR, contactsByte f] ++ (f.beacon.map beaconByte).toList ++ (f.dockId.map byteOf).toList)
  | .powerOn => none
  | .configReadEnd _ => none
  | .planBadFrame => none
  | .linkBadFrame _ => none
  | .controlPeriodExpiry => none
  | .requestTimeout _ => none
  | .brushTimeout => none
  | .linkTimeout _ => none
  | .backOffTimeLimit => none
  | .lostBeaconExpiry => none
  | .bumpReverseTimeLimit => none
  | .undockTimeLimit => none
  | .statusInterval => none
  | .planTransmitterFree => none
  | .driveTransmitterFree => none

/-- The bytes after the sync byte of the frame that carries a command. -/
def encode (i : Instr) : Option (List Byte) := (encodeBody i).map (fun f => frameBytes f.1 f.2)

/-! ## Words of the opcode table -/

/-- The command that a word of the opcode table spells: none, since no row of the table gives bits
(notes/assumptions/26.md). -/
def decodeTableWord (_nbits _w : Nat) : Option Instr := none

end Sys2Proof
end

