-- ==== Sys2Proof/Machine/RunControl.lean ====
section
/-! DEFINITION. The Run Controller: whether a line is up, Start, and the mode commands judged at their take (chapter 6). -/

namespace Sys2Proof.Machine

/-- A line is up while its watch is UP (R106, R164). -/
def Watch.isUp : Watch → Bool
  | .up _ => true
  | _ => false

/-- The start of a watch's running timer, or none (R164). -/
def Watch.timer? : Watch → Option Time
  | .waiting t => some t
  | .up t => some t
  | .off => none
  | .lost => none

/-- Both the Drive Link and the Sense Port are up (R105, R106). -/
def bothUp (s : State) : Bool := s.dli.watch.isUp && s.snp.watch.isUp

/-- A Start (R105). -/
def takeStart (s : State) : State :=
  if s.rct.state = .idle && bothUp s then changeRun .run s else raise .commandRefused (.refused .start) s

/-- A mode command is queued, or lost when three wait (R108). -/
def queueMode (kind : ModeKind) (factor : Nat) (s : State) : State :=
  if s.rct.modeQueue.length < 3 then
    { s with rct := { s.rct with modeQueue := s.rct.modeQueue ++ [modeCommand kind factor] } }
  else raise .modeLost (.mode kind) s

/-- The legality table of R110; a Stop in FAULT needs both lines up. -/
def legal (kind : ModeKind) (r : RunState) (linesUp : Bool) : Bool :=
  match kind, r with
  | .hold, .run | .hold, .creep | .hold, .step | .hold, .homing | .hold, .approach | .hold, .undocking => true
  | .resume, .creep | .resume, .step | .resume, .hold => true
  | .creep, .run | .creep, .creep | .creep, .step | .creep, .hold => true
  | .step, .run | .step, .creep | .step, .hold => true
  | .returnHome, .idle | .returnHome, .run | .returnHome, .creep | .returnHome, .hold => true
  | .undock, .docked => true
  | .stop, .loading => false
  | .stop, .lifted => false
  | .stop, .fault => linesUp
  | .stop, _ => true
  | _, _ => false

/-- A Stop taken (R111). -/
def takeStop (s : State) : State := changeRun .idle (discardSegments s)

/-- A Hold taken; in APPROACH it raises DOCK_FAIL (held) (R112). -/
def takeHold (s : State) : State :=
  if s.rct.state = .approach then raise .dockFail (.dockFailure .held) (changeRun .hold s) else changeRun .hold s

/-- A Creep taken with its queued factor (R113). -/
def takeCreep (factor : Nat) (s : State) : State :=
  { changeRun .creep s with rct := { (changeRun .creep s).rct with creep := factor } }

/-- A Step taken: STEP with the current segment, STEP with the pending-step flag when the queue's head will be the
step's segment, HOLD when there is none (R114). -/
def takeStep (s : State) : State :=
  if s.mgt.current.isNone && s.mgt.queue.isEmpty then changeRun .hold s
  else
    { changeRun .step s with rct := { (changeRun .step s).rct with pendingStep := s.mgt.current.isNone } }

/-- An Undock taken: the reverse measure begins (R115, R154). -/
def takeUndock (s : State) : State :=
  { changeRun .undocking s with
    dau := { (changeRun .undocking s).dau with reverse := some { travel := 0, start := s.pot.timeCount } } }

/-- The effect of a legal mode command (R111 to R115). -/
def carryOut (c : ModeCommand) (s : State) : State :=
  match c.kind with
  | .hold => takeHold s
  | .resume => changeRun .run s
  | .creep => takeCreep c.factor s
  | .step => takeStep s
  | .returnHome => changeRun .homing s
  | .undock => takeUndock s
  | .stop => takeStop s

/-- The RCT's take at an expiry: the oldest mode command leaves the queue and is carried out or refused (R109, R110). -/
def takeMode (s : State) : State :=
  match s.rct.modeQueue with
  | [] => s
  | c :: rest =>
    let s1 := { s with rct := { s.rct with modeQueue := rest } }
    if legal c.kind s.rct.state (bothUp s) then carryOut c s1
    else raise .commandRefused (.refused (.mode c.kind)) s1

end Sys2Proof.Machine
end

