-- ==== Sys2Proof/Machine/Window.lean ====
section
/-! DEFINITION. The Tile Window: slots, recency, pinning, lookups, requests, eviction, read-ahead and the level change
(chapter 3). -/

namespace Sys2Proof.Machine

/-! ## Slots (R36) -/

/-- The key of an occupied slot. -/
def Slot.key? : Slot → Option TileKey
  | .empty => none
  | .pending k _ => some k
  | .clean t => some t.key
  | .marked t _ => some t.key
  | .sent t _ => some t.key

/-- The tile of a slot with contents: CLEAN, MARKED or SENT (R36). -/
def Slot.tile? : Slot → Option Tile
  | .empty => none
  | .pending _ _ => none
  | .clean t => some t
  | .marked t _ => some t
  | .sent t _ => some t

/-- The slot is EMPTY. -/
def Slot.isEmpty : Slot → Bool
  | .empty => true
  | _ => false

/-- The slot is PENDING. -/
def Slot.isPending : Slot → Bool
  | .pending _ _ => true
  | _ => false

/-- The slot is CLEAN. -/
def Slot.isClean : Slot → Bool
  | .clean _ => true
  | _ => false

/-- The slot is MARKED. -/
def Slot.isMarked : Slot → Bool
  | .marked _ _ => true
  | _ => false

/-- The slot is SENT. -/
def Slot.isSent : Slot → Bool
  | .sent _ _ => true
  | _ => false

/-- The slot numbers, lowest first. -/
def slotNumbers : List SlotNo := [0, 1, 2, 3, 4, 5, 6, 7, 8, 9, 10, 11, 12, 13, 14, 15]

/-- The slot of a number. -/
def TileWindow.slot (w : TileWindow) (i : SlotNo) : Slot := w.slots[i]

/-- The slot that holds a key, in any occupied state (R38). -/
def TileWindow.find (w : TileWindow) (k : TileKey) : Option SlotNo :=
  slotNumbers.find? (fun i => (w.slot i).key? == some k)

/-- The lowest-numbered EMPTY slot (R44, R53). -/
def TileWindow.lowestEmpty (w : TileWindow) : Option SlotNo := slotNumbers.find? (fun i => (w.slot i).isEmpty)

/-- The number of slots in a state. -/
def TileWindow.count (w : TileWindow) (p : Slot → Bool) : Nat := slotNumbers.countP (fun i => p (w.slot i))

/-- The pending-request count (R43). -/
def TileWindow.pendingRequests (w : TileWindow) : Nat := w.count Slot.isPending

/-- At least one slot is MARKED or SENT (R57). -/
def TileWindow.holdsMarks (w : TileWindow) : Bool :=
  slotNumbers.any (fun i => (w.slot i).isMarked || (w.slot i).isSent)

/-- A slot's record replaced. -/
def TileWindow.put (w : TileWindow) (i : SlotNo) (x : Slot) : TileWindow := { w with slots := w.slots.set i x }

/-- A slot moves to most-recent, or enters the order there (R39). -/
def TileWindow.touch (w : TileWindow) (i : SlotNo) : TileWindow := { w with recency := w.recency.erase i ++ [i] }

/-- A slot becomes EMPTY and leaves the recency order (R39). -/
def TileWindow.vacate (w : TileWindow) (i : SlotNo) : TileWindow :=
  { w.put i .empty with recency := w.recency.erase i }

/-- A slot takes a record and stands most-recent (R39). -/
def TileWindow.occupy (w : TileWindow) (i : SlotNo) (x : Slot) : TileWindow := (w.put i x).touch i

/-- The unsolicited-discard count rises by one, saturating at 255 (R50, R53). -/
def TileWindow.discardArrival (w : TileWindow) : TileWindow := { w with unsolicited := countUp 255 w.unsolicited }

/-! ## Pinning and eviction (R40, R44) -/

/-- Some number of lo..lo+15 differs from `c` by at most 2. -/
def nearSpan (lo c : Nat) : Bool := lo ≤ c + 2 && c ≤ lo + 17

/-- The tile of a key contains a cell within 2 cells of the robot's centre cell (R40). -/
def pinned (p : Pose) (k : TileKey) : Bool :=
  k.level == p.level && nearSpan (16 * k.col) p.centre.col && nearSpan (16 * k.row) p.centre.row

/-- The slot may be evicted: CLEAN and not pinned (R44). -/
def evictable (p : Pose) : Slot → Bool
  | .clean t => !pinned p t.key
  | _ => false

/-- The least-recent CLEAN slot that is not pinned (R44). -/
def TileWindow.victim (w : TileWindow) (p : Pose) : Option SlotNo := w.recency.find? (fun i => evictable p (w.slot i))

/-- The slot that a request takes: the lowest EMPTY one, else the one to evict (R44). -/
def TileWindow.slotToTake (w : TileWindow) (p : Pose) : Option SlotNo :=
  match w.lowestEmpty with
  | some i => some i
  | none => w.victim p

/-! ## Requests (R43, R45) -/

/-- A TILE_REQUEST for a key waits at the PLI (R45). -/
def queueTileRequest (k : TileKey) (s : State) : State :=
  { s with pli := { s.pli with requests := s.pli.requests ++ [k] } }

/-- A TILE_REQUEST for a key that still waits is withdrawn (R45). -/
def withdrawTileRequest (k : TileKey) (s : State) : State :=
  { s with pli := { s.pli with requests := s.pli.requests.filter (fun r => r != k) } }

/-- A slot becomes PENDING for a key, its request time now, and the TILE_REQUEST waits (R43 steps 4 and 5). -/
def openRequest (i : SlotNo) (k : TileKey) (s : State) : State :=
  queueTileRequest k { s with twn := s.twn.occupy i (.pending k s.pot.timeCount) }

/-- A request for a key on the current level (R43, R44). -/
def request (k : TileKey) (s : State) : State :=
  if (s.twn.find k).isSome || 6 ≤ s.twn.pendingRequests then s
  else
    match s.twn.slotToTake s.pot.pose with
    | some i => openRequest i k s
    | none => raise .windowFull (.key k) s

/-! ## Lookups (R41, R42) -/

/-- A lookup of a cell on the level: its class on a hit, none for unknown. A hit moves its slot to most-recent; a miss
with the pose valid starts a request (R41, R42). -/
def lookup (c : Cell) (s : State) : Option CellClass × State :=
  match s.twn.find (c.key s.pot.pose.level) with
  | none => (none, if s.pot.pose.valid then request (c.key s.pot.pose.level) s else s)
  | some i =>
    match (s.twn.slot i).tile? with
    | none => (none, s)
    | some t => (some t.cells[c.index], { s with twn := s.twn.touch i })

/-- A lookup of a point that may lie off the level, where the class is 15 and no slot is searched (R2, R41). -/
def lookupOrOffMap (c : Option Cell) (s : State) : Option CellClass × State :=
  match c with
  | none => (some 15, s)
  | some c => lookup c s

/-- The response record of a class, as the table stands (R6). -/
def responseOf (s : State) (c : CellClass) : ResponseRecord := s.tbs.response[c]

/-! ## Read-ahead (R46, R47) -/

/-- The step over a tile's edge that a column or row within the tile qualifies: -1 for 0..2, 1 for 13..15, none
otherwise (R46). -/
def edgeStep (within_ : Nat) : Option Int :=
  if within_ ≤ 2 then some (-1) else if 13 ≤ within_ then some 1 else none

/-- The neighbour tile of a key, or none when it lies off the level (R46). -/
def neighbour (k : TileKey) (dcol drow : Int) : Option TileKey :=
  let col := (k.col : Int) + dcol
  let row := (k.row : Int) + drow
  if 0 ≤ col && col ≤ 63 && 0 ≤ row && row ≤ 63 then some { k with col := col.toNat, row := row.toNat } else none

/-- The neighbours that read-ahead asks for at a centre cell: x, then y, then diagonal (R46, R47). -/
def readAheadKeys (level : Nat) (c : Cell) : List TileKey :=
  let k := c.key level
  let dx := edgeStep (c.col % 16)
  let dy := edgeStep (c.row % 16)
  let x := dx.bind (fun d => neighbour k d 0)
  let y := dy.bind (fun d => neighbour k 0 d)
  let diagonal := dx.bind (fun d => dy.bind (fun e => neighbour k d e))
  x.toList ++ y.toList ++ diagonal.toList

/-- Read-ahead at the robot's centre cell: each request on the window as the one before left it (R47). -/
def readAhead (s : State) : State :=
  (readAheadKeys s.pot.pose.level s.pot.pose.centre).foldl (fun s k => request k s) s

/-! ## Level change (R57) -/

/-- Every slot becomes EMPTY, the recency order empty, every waiting TILE_REQUEST withdrawn; the unsolicited-discard
count is kept (R57). -/
def levelChange (s : State) : State :=
  { s with twn := { emptyWindow with unsolicited := s.twn.unsolicited }, pli := { s.pli with requests := [] } }

/-- The request of a PENDING slot has reached the stored request timeout (R48). -/
def requestDue (s : State) (i : SlotNo) : Option TileKey :=
  match s.twn.slot i with
  | .pending k requested => if 2 * s.tbs.cal.requestTimeout ≤ elapsed s.pot.timeCount requested then some k else none
  | _ => none

/-- The expiry of a request: the slot EMPTY, a waiting TILE_REQUEST withdrawn, TILE_LATE raised (R48). -/
def expireRequest (i : SlotNo) (k : TileKey) (s : State) : State :=
  raise .tileLate (.key k) (withdrawTileRequest k { s with twn := s.twn.vacate i })

end Sys2Proof.Machine
end

