-- ==== Sys2Proof/Machine/Gate.lean ====
section
/-! DEFINITION. The Motion Gate: segments and their progress, the gate computation and the brush wish (chapter 5). -/

namespace Sys2Proof.Machine

/-! ## Segments (R80, R82, R83, R84) -/

/-- A segment joins the queue, or is lost when eight are queued (R80). -/
def queueSegment (g : Segment) (s : State) : State :=
  if s.mgt.queue.length < 8 then { s with mgt := { s.mgt with queue := s.mgt.queue ++ [g] } }
  else raise .segmentOverflow (.tag g.tag) s

/-- A segment that becomes current, both sums at 0 (R82). -/
def Segment.begin (g : Segment) : CurrentSegment := { segment := g, travel := 0, elapsed := 0 }

/-- The head of the queue becomes current, if there is one; a starvation ends (R82, R84). -/
def takeHead (s : State) : State :=
  match s.mgt.queue with
  | [] => s
  | g :: rest => { s with mgt := { s.mgt with queue := rest, current := some g.begin, starved := false } }

/-- At an expiry in a moving state with no current segment, the head becomes current and the pending-step flag is
cleared (R82, R114). -/
def takeAtExpiry (s : State) : State :=
  if s.rct.state.moving && s.mgt.current.isNone && !s.mgt.queue.isEmpty then
    { takeHead s with rct := { s.rct with pendingStep := false } }
  else s

/-- The current segment has reached its limit (R83). -/
def CurrentSegment.complete (c : CurrentSegment) : Bool :=
  match c.segment.kind with
  | .dist => 2048 * c.segment.limit ≤ c.travel
  | .time => c.segment.limit ≤ c.elapsed

/-- The completion of the current segment: the count rises, wrapping from 65535 to 0, and the successor is taken, the
robot is starved, or STEP ends in HOLD (R84). -/
def completeSegment (g : Segment) (s : State) : State :=
  let s1 := { s with mgt := { s.mgt with current := none, completed := (s.mgt.completed + 1) % 65536 } }
  if s.rct.state = .step then changeRun .hold s1
  else if s.mgt.queue.isEmpty then
    raise .segmentsEmpty (.tag g.tag) { s1 with mgt := { s1.mgt with starved := true } }
  else takeHead s1

/-- The current segment's sums become `c`'s, and it completes if its limit is reached (R83, R84). -/
def progressSegment (c : CurrentSegment) (s : State) : State :=
  if c.complete then completeSegment c.segment s else { s with mgt := { s.mgt with current := some c } }

/-- A travel figure is added to the current segment in a moving state (R83). -/
def segmentTravel (figure : Nat) (s : State) : State :=
  match s.mgt.current with
  | some c => if s.rct.state.moving then progressSegment { c with travel := c.travel + figure } s else s
  | none => s

/-- The length in ms of the period that has ended is added to the current segment that was the source (R83). -/
def segmentElapsed (length : Nat) (s : State) : State :=
  match s.mgt.current with
  | some c => if s.rct.state.moving then progressSegment { c with elapsed := c.elapsed + length } s else s
  | none => s

/-! ## The gate computation (R89 to R100) -/

/-- The DAU's source in APPROACH, by the phase and the last sector (R146). -/
def approachSource (c : Calibration) (d : DockUnit) : Int × Int :=
  let turn : Int := c.approachTurnSpeed
  match d.phase, d.lastSector with
  | .track, some .left => (-turn, turn)
  | .track, some .right => (turn, -turn)
  | .track, _ => (c.approachSpeed, c.approachSpeed)
  | .search, some .right => (turn, -turn)
  | .search, _ => (-turn, turn)
  | .bumpReverse, _ => (-(c.backOffSpeed : Int), -(c.backOffSpeed : Int))
  | .bumpHalt, _ => (0, 0)
  | .contact, _ => (0, 0)
  | .none, _ => (0, 0)

/-- The source speeds by the run state, or none (R89, R146, R154). -/
def gateSource (s : State) : Option (Int × Int) :=
  match s.rct.state with
  | .run | .creep | .step | .homing =>
    match s.mgt.current with
    | some c => some (c.segment.vL, c.segment.vR)
    | none => some (0, 0)
  | .approach => some (approachSource s.tbs.cal s.dau)
  | .undocking => some (-(s.tbs.cal.approachSpeed : Int), -(s.tbs.cal.approachSpeed : Int))
  | .reflex =>
    match s.rfx.phase with
    | .back _ _ => some (-(s.tbs.cal.backOffSpeed : Int), -(s.tbs.cal.backOffSpeed : Int))
    | _ => none
  | _ => none

/-- A wheel speed held to a limit of magnitude (R90, R91). -/
def clampWheel (limit : Nat) (v : Int) : Int := clampInt (-(limit : Int)) limit v

/-- The centre speed of a pair (R90). -/
def centreSpeed (vL vR : Int) : Int := (vL + vR).tdiv 2

/-- The divisor of the limits: the creep factor in CREEP, 1 in every other state (R91, R96). -/
def creepDivisor (s : State) : Nat := if s.rct.state = .creep then s.rct.creep else 1

/-- The scan heading: the heading for a forward centre speed, its reverse for a backward one (R92). -/
def scanHeading (heading : Nat) (vc : Int) : Nat := if 0 < vc then heading else reverseOf heading

/-- The distance of sample k from the robot's centre, in mm (R92). -/
def sampleDistance (c : Calibration) (k : Nat) : Nat := c.leadDistance + 50 * (k - 1)

/-- The cell of sample k, or none off the level (R92). -/
def sampleCell (s : State) (heading k : Nat) : Option Cell :=
  let d : Int := (sampleDistance s.tbs.cal k * 16 : Nat)
  cellOfPoint (s.pot.pose.x + halfUp (d * cosine heading) 16384) (s.pot.pose.y + halfUp (d * sine heading) 16384)

/-- The result of a sample's lookup stops the scan: unknown, or a blocking class (R93). -/
def stopsScan (s : State) : Option CellClass → Bool
  | none => true
  | some c => (responseOf s c).blocking

/-- The samples k, k+1, … of the `left` that remain are looked up in order; the number of the first that stops the scan,
or 0 (R93). -/
def scanFrom (heading : Nat) : Nat → Nat → State → Nat × State
  | 0, _, s => (0, s)
  | left + 1, k, s =>
    let r := lookupOrOffMap (sampleCell s heading k) s
    if stopsScan r.2 r.1 then (k, r.2) else scanFrom heading left (k + 1) r.2

/-- The brake limit: B[k*], or Vclear when no sample stopped the scan (R93). -/
def brakeLimit (t : BrakingTable) (kStar : Nat) : Nat := if kStar = 0 then t.vclear else t.limits.toList.getD (kStar - 1) 0

/-- What the scan gives: k* and the brake limit, blind when the pose is invalid (R92, R93, R94). -/
def scan (vc : Int) (s : State) : (Nat × Nat) × State :=
  if s.pot.pose.valid then
    let r := scanFrom (scanHeading s.pot.pose.heading vc) s.tbs.cal.lookAhead 1 s
    ((r.1, brakeLimit s.tbs.braking r.1), r.2)
  else ((0, s.tbs.cal.blindLimit), s)

/-- The lookup of the robot's centre cell, not made with the pose invalid (R95). -/
def lookupCentre (s : State) : Option CellClass × State :=
  if s.pot.pose.valid then lookup s.pot.pose.centre s else (none, s)

/-- The floor cap: that of the centre cell's class, or the blind limit for unknown (R95). -/
def floorCap (s : State) : Option CellClass → Nat
  | none => s.tbs.cal.blindLimit
  | some c => (responseOf s c).floorCap

/-- The limit on centre speed (R96). -/
def gateLimit (s : State) (brake cap : Nat) : Nat :=
  let v := min (min brake cap) s.tbs.cal.vMax / creepDivisor s
  if anySuspect s.rfx.suspects then min v s.tbs.cal.confirmCreep else v

/-- One wheel scaled to the limit (R97). -/
def scaleWheel (v : Int) (vlim : Nat) (vc : Int) : Int := (v * vlim).tdiv vc.natAbs

/-- The clamped pair scaled to the limit (R97). -/
def scalePair (vL vR : Int) (vlim : Nat) (vc : Int) : Int × Int :=
  if vc.natAbs ≤ vlim then (vL, vR) else (scaleWheel vL vlim vc, scaleWheel vR vlim vc)

/-- How restrictive a brush state is: STOP before LIFT before LOW before RUN (R99). -/
def brushRank : BrushState → Nat
  | .stop => 0
  | .lift => 1
  | .low => 2
  | .run => 3
  | .reverse => 4

/-- The more restrictive of two brush states (R99). -/
def stricter (a b : BrushState) : BrushState := if brushRank a ≤ brushRank b then a else b

/-- The centre cell's part of the brush wish: its class's brush action, or LIFT for unknown (R99). -/
def centreWish (s : State) : Option CellClass → BrushState
  | none => .lift
  | some c => (responseOf s c).brush

/-- The brush wish, given what the centre cell's lookup found (R99). -/
def brushWish (s : State) (centre : Option CellClass) : BrushState :=
  if s.rct.state.moving then
    match s.mgt.current.bind (fun c => c.segment.brush) with
    | some b => stricter b (centreWish s centre)
    | none => centreWish s centre
  else
    match s.rfx.phase with
    | .back .jam _ => if s.rct.state = .reflex then .reverse else .stop
    | _ => .stop

/-- What a gate computation hands over: the pair, the brush wish and the gate result (R98, R99, R100). -/
structure GateOutput where
  vL : Int
  vR : Int
  wish : BrushState
  result : GateResult
  deriving DecidableEq, Repr

/-- The spin case: the wheels held to floor(Vspin / n), and the centre cell looked up for the brush wish alone, in a
moving state (R91). -/
def spin (srcL srcR vL vR : Int) (s : State) : GateOutput × State :=
  let limit := s.tbs.cal.vSpin / creepDivisor s
  let r := if s.rct.state.moving then lookupCentre s else (none, s)
  let outL := clampWheel limit vL
  let outR := clampWheel limit vR
  ({ vL := outL, vR := outR, wish := brushWish s r.1,
     result := { vc := 0, vlim := none, kStar := 0, scaled := outL != srcL || outR != srcR } }, r.2)

/-- The travelling case: scan, floor cap, limit and scale (R92 to R97). -/
def travel (srcL srcR vL vR : Int) (s : State) : GateOutput × State :=
  let vc := centreSpeed vL vR
  let found := scan vc s
  let centre := lookupCentre found.2
  let vlim := gateLimit s found.1.2 (floorCap s centre.1)
  let out := scalePair vL vR vlim vc
  ({ vL := out.1, vR := out.2, wish := brushWish s centre.1,
     result := { vc := vc, vlim := some vlim, kStar := found.1.1, scaled := out.1 != srcL || out.2 != srcR } }, centre.2)

/-- The gate computation: source, wheel clamp, centre speed, then the spin case or the travelling case; no step of it
is made without a source (R89, R90). -/
def gateCompute (s : State) : GateOutput × State :=
  match gateSource s with
  | none => ({ vL := 0, vR := 0, wish := brushWish s none, result := stillResult }, s)
  | some (srcL, srcR) =>
    let vL := clampWheel s.tbs.cal.vWheel srcL
    let vR := clampWheel s.tbs.cal.vWheel srcR
    if centreSpeed vL vR = 0 then spin srcL srcR vL vR s else travel srcL srcR vL vR s

end Sys2Proof.Machine
end

