-- ==== Sys2Proof/Machine/Pose.lean ====
section
/-! DEFINITION. The Pose Tracker's writes: heading, position, history ring, Set-Pose, the dock snap and the loss of the
pose (sections 2.3 to 2.10). -/

namespace Sys2Proof.Machine

/-- The pose record replaced. -/
def withPose (p : Pose) (s : State) : State := { s with pot := { s.pot with pose := p } }

/-- A sense frame's yaw increment turns the heading (R21). -/
def turnHeading (yaw : Int) (s : State) : State :=
  withPose { s.pot.pose with heading := turnBy s.pot.pose.heading yaw } s

/-- The move of one axis, in sixteenths, for the tick sum `ticks` and the axis's factor from the sine table (R22). -/
def axisMove (ticks : Int) (tickLength : Nat) (factor : Int) : Int := halfUp (ticks * tickLength * factor) (2 ^ 21)

/-- A coordinate lies off the level (R23). -/
def offLevel (v : Int) : Bool := v < 0 || (positionMax : Int) < v

/-- The position moved by a reply's ticks and saturated; POSE_EDGE (odometry) when either axis was (R22, R23). -/
def movePosition (ticks : Int) (s : State) : State :=
  let p := s.pot.pose
  let x := (p.x : Int) + axisMove ticks s.tbs.cal.tickLength (cosine p.heading)
  let y := (p.y : Int) + axisMove ticks s.tbs.cal.tickLength (sine p.heading)
  let s1 := withPose { p with x := saturate x, y := saturate y } s
  if offLevel x || offLevel y then raise .poseEdge .edgeOdometry s1 else s1

/-- The ring with a new newest entry; at 32 entries the oldest is removed (R26). -/
def appendEntry (ring : List HistoryEntry) (e : HistoryEntry) : List HistoryEntry :=
  if ring.length < 32 then ring ++ [e] else ring.tail ++ [e]

/-- The history entry of an odometry reply (R26). -/
def appendHistory (s : State) : State :=
  { s with pot := { s.pot with
      history := appendEntry s.pot.history
        { stamp := s.pot.timeCount, x := s.pot.pose.x, y := s.pot.pose.y, heading := s.pot.pose.heading } } }

/-- The history ring emptied. -/
def emptyHistory (s : State) : State := { s with pot := { s.pot with history := [] } }

/-- The TWN's level change, when the new level differs from the pose record's (R32, R34). -/
def changeLevel (level : Nat) (s : State) : State := if level = s.pot.pose.level then s else levelChange s

/-- Set-Pose is refused in REFLEX and APPROACH, and across levels while a slot is MARKED or SENT (R31). -/
def setPoseRefused (level : Nat) (s : State) : Bool :=
  s.rct.state == .reflex || s.rct.state == .approach || (clampLevel level != s.pot.pose.level && s.twn.holdsMarks)

/-- An accepted Set-Pose (R32). -/
def acceptPose (level x y heading : Nat) (s : State) : State :=
  let s1 := emptyHistory
    (withPose { valid := true, level := clampLevel level, x := givenPosition x, y := givenPosition y,
                heading := clampHeading heading } (changeLevel (clampLevel level) s))
  if positionMax < x * 16 || positionMax < y * 16 then raise .poseEdge .edgeSetPose s1 else s1

/-- A Set-Pose (R31, R32). -/
def takeSetPose (level x y heading : Nat) (s : State) : State :=
  if setPoseRefused level s then raise .commandRefused (.refused .setPose) s else acceptPose level x y heading s

/-- The level kept and DOCK_FAIL (level held) raised, or the level change made and the dock's level taken (R34 steps 2 to 4). -/
def snapLevel (level : Nat) (s : State) : State :=
  if level = s.pot.pose.level then s
  else if s.twn.holdsMarks then raise .dockFail (.dockFailure .levelHeld) s
  else withPose { (levelChange s).pot.pose with level := level } (levelChange s)

/-- The dock snap (R34). -/
def dockSnap (s : State) : State :=
  let d := s.tbs.dock
  let s1 := snapLevel d.level (withPose { s.pot.pose with x := d.x * 16, y := d.y * 16, heading := d.heading } s)
  emptyHistory (withPose { s1.pot.pose with valid := true } s1)

/-- The pose becomes invalid and POSE_LOST (lifted) is raised, at the end of LIFTED (R30). -/
def losePose (s : State) : State := raise .poseLost .lifted (withPose { s.pot.pose with valid := false } s)

end Sys2Proof.Machine
end

