-- ==== Sys2Proof/Machine/Docking.lean ====
section
/-! DEFINITION. The Dock Approach Unit: hand-over, tracking, search, approach bumps, contact and dock ID, docked and
undocking (chapter 8). -/

namespace Sys2Proof.Machine

/-- The DAU's record replaced. -/
def withDock (d : DockUnit) (s : State) : State := { s with dau := d }

/-- The sector of a beacon observation, or none when no receiver saw the beacon (R144). -/
def sectorOf (b : Beacon) : Option Sector :=
  if b.centre then some .centre
  else if b.left && b.right then some .centre
  else if b.left then some .left
  else if b.right then some .right
  else none

/-- The sector of the frame's dock-code observation, if it carries one (R144). -/
def observation (s : State) (f : SenseFrame) : Option Sector :=
  match f.beacon with
  | some b => if b.code = s.tbs.dock.code then sectorOf b else none
  | none => none

/-- The frame carries a dock-code observation in which the centre receiver saw the beacon (R145). -/
def centreSeen (s : State) (f : SenseFrame) : Bool :=
  match f.beacon with
  | some b => b.code == s.tbs.dock.code && b.centre
  | none => false

/-- The pose is invalid, or lies within the approach radius of the dock on the dock's level (R145). -/
def withinRadius (s : State) : Bool :=
  let p := s.pot.pose
  let d := s.tbs.dock
  let dx : Int := ((p.x / 16 : Nat) : Int) - d.x
  let dy : Int := ((p.y / 16 : Nat) : Int) - d.y
  let r : Int := s.tbs.cal.approachRadius
  !p.valid || (p.level == d.level && dx * dx + dy * dy ≤ r * r)

/-- The hand-over from HOMING to APPROACH (R145). -/
def handOver (s : State) : State :=
  let s1 := enterDiscarding .approach s
  { s1 with
    rfx := { s1.rfx with approachBumps := 0 }
    dau := { idleDock with phase := .track, lastSector := some .centre, beaconTimer := some s.pot.timeCount } }

/-- An approach fails: HOLD and DOCK_FAIL with its reason (R148, R149, R151). -/
def failApproach (reason : DockFailure) (s : State) : State :=
  raise .dockFail (.dockFailure reason) (changeRun .hold s)

/-- An approach bump handed to the DAU, with the count that the RFX has just raised: a zero setpoint frame, then BUMP_HALT
at 1 or 2 and failure at 3 (R149). -/
def dockBump (s : State) : State :=
  let s1 := sendZero s
  if 3 ≤ s1.rfx.approachBumps then failApproach .bumps s1
  else withDock { s1.dau with phase := .bumpHalt, beaconTimer := none, contactCount := 0, idWait := 0, reverse := none } s1

/-- BUMP_HALT becomes BUMP_REVERSE at a control period expiry (R149). -/
def beginBumpReverse (s : State) : State :=
  if s.dau.phase = .bumpHalt then
    withDock { s.dau with phase := .bumpReverse, reverse := some { travel := 0, start := s.pot.timeCount } } s
  else s

/-- BUMP_REVERSE ends: TRACK, with the lost-beacon timer started (R149). -/
def endBumpReverse (s : State) : State :=
  withDock { s.dau with phase := .track, beaconTimer := some s.pot.timeCount, reverse := none } s

/-- The undock ends: HOLD (R154). -/
def endUndock (s : State) : State := changeRun .hold s

/-- Docking on a matching dock ID: the snap, DOCKED, and the event (R152). -/
def dock (s : State) : State :=
  let s1 := changeRun .docked (dockSnap s)
  raise .docked (.dockCode s1.tbs.dock.code) s1

/-- A frame in CONTACT is judged for contact and dock ID (R151). -/
def judgeContact (f : SenseFrame) (s : State) : State :=
  if !f.contact then
    withDock { s.dau with phase := .track, beaconTimer := some s.pot.timeCount, contactCount := 0, idWait := 0 } s
  else
    match f.dockId with
    | some id => if id = s.tbs.dock.code then dock s else failApproach .wrongDock s
    | none =>
      let s1 := withDock { s.dau with idWait := s.dau.idWait + 1 } s
      if 10 ≤ s.dau.idWait + 1 then failApproach .noId s1 else s1

/-- The frame's contact is counted in TRACK or SEARCH; the fifth in a row moves to CONTACT, and the same frame is judged
there (R150). -/
def countContact (f : SenseFrame) (s : State) : State :=
  if !f.contact then withDock { s.dau with contactCount := 0 } s
  else if 5 ≤ s.dau.contactCount + 1 then
    judgeContact f
      (withDock { s.dau with phase := .contact, beaconTimer := none, searchTurn := 0, contactCount := 5, idWait := 0 } s)
  else withDock { s.dau with contactCount := s.dau.contactCount + 1 } s

/-- A dock-code observation in TRACK sets the last sector and restarts the lost-beacon timer (R144). -/
def observeTrack (o : Option Sector) (s : State) : State :=
  match o with
  | some x => withDock { s.dau with lastSector := some x, beaconTimer := some s.pot.timeCount } s
  | none => s

/-- A dock-code observation in BUMP_HALT, BUMP_REVERSE or CONTACT sets the last sector alone (R144). -/
def observeOnly (o : Option Sector) (s : State) : State :=
  match o with
  | some x => withDock { s.dau with lastSector := some x } s
  | none => s

/-- The magnitude of the yaw increment joins the search turn sum; a full turn fails the approach (R148 step 3). -/
def searchTurn (yaw : Int) (s : State) : State :=
  let s1 := withDock { s.dau with searchTurn := s.dau.searchTurn + yaw.natAbs } s
  if 4096 ≤ s.dau.searchTurn + yaw.natAbs then failApproach .noBeacon s1 else s1

/-- A sense frame in SEARCH (R148). DESIGN CHOICE: a frame with an observation leaves the contact count as it is, as step 1 of
R148 skips step 2, although R150 judges the count at each sense frame in SEARCH (notes/assumptions/33.md). -/
def searchFrame (f : SenseFrame) (s : State) : State :=
  match observation s f with
  | some x =>
    withDock { s.dau with phase := .track, lastSector := some x, beaconTimer := some s.pot.timeCount, searchTurn := 0 } s
  | none =>
    let s1 := countContact f s
    if s1.dau.phase = .search then searchTurn f.yaw s1 else s1

/-- A sense frame in DOCKED: the fifth in a row without contact ends in HOLD with DOCK_LOST (R153). -/
def watchContact (f : SenseFrame) (s : State) : State :=
  if f.contact then withDock { s.dau with contactCount := 0 } s
  else if 5 ≤ s.dau.contactCount + 1 then raise .dockLost (.dockCode s.tbs.dock.code) (changeRun .hold s)
  else withDock { s.dau with contactCount := s.dau.contactCount + 1 } s

/-- A sense frame in APPROACH, by the phase as it stands (R144, R148, R150, R151). -/
def approachFrame (f : SenseFrame) (s : State) : State :=
  match s.dau.phase with
  | .track => countContact f (observeTrack (observation s f) s)
  | .search => searchFrame f s
  | .contact => judgeContact f (observeOnly (observation s f) s)
  | .bumpHalt => observeOnly (observation s f) s
  | .bumpReverse => observeOnly (observation s f) s
  | .none => s

/-- The DAU takes a sense frame, on the run state as it now stands (R144). -/
def dockFrame (f : SenseFrame) (s : State) : State :=
  match s.rct.state with
  | .homing => if centreSeen s f && withinRadius s then handOver s else s
  | .approach => approachFrame f s
  | .docked => watchContact f s
  | _ => s

end Sys2Proof.Machine
end

