-- ==== Sys2Proof/Machine/Marks.lean ====
section
/-! DEFINITION. Marks and map reports: the age lookup and the points of marks, mark requests, the marks list, the report
queue, refusals, the merged tile and the building of a report (sections 2.6 and 2.7, chapter 4). -/

namespace Sys2Proof.Machine

/-! ## The age lookup (R27) -/

/-- The better answer of step 2 of R27: among entries made at or before the sample, the smallest elapsed time, and the
later-appended of equals. -/
def betterEntry (arrival : Time) (age : Nat) (best : Option HistoryEntry) (e : HistoryEntry) : Option HistoryEntry :=
  let t := elapsed arrival e.stamp
  if t < 2 ^ 31 && age ≤ t then
    match best with
    | none => some e
    | some b => if t ≤ elapsed arrival b.stamp then some e else some b
  else best

/-- A history entry as a base. -/
def HistoryEntry.base (e : HistoryEntry) : Base := { x := e.x, y := e.y, heading := e.heading }

/-- Where the robot was when a sense sample was taken, and the stale flag (R27). -/
def ageLookup (p : PoseTracker) (arrival : Time) (age : Nat) : Base × Bool :=
  match p.history.foldl (betterEntry arrival age) none with
  | some e => (e.base, false)
  | none =>
    match p.history with
    | e :: _ => (e.base, true)
    | [] => (p.pose.base, true)

/-! ## Points (R29) -/

/-- The offset of a cliff sensor, forward and left (R11, R29). -/
def sensorOffset (c : Calibration) : CliffSensor → Int × Int
  | .fl => (c.flForward, c.flLeft)
  | .fr => (c.frForward, c.frLeft)
  | .sl => (c.slForward, c.slLeft)
  | .sr => (c.srForward, c.srLeft)

/-- The offset of a trigger's mark point, forward and left (R29). -/
def markOffset (c : Calibration) : Hazard → Int × Int
  | .cliff x => sensorOffset c x
  | .drop .left => (0, (c.trackWidth / 2 : Nat))
  | .drop .right => (0, -((c.trackWidth / 2 : Nat) : Int))
  | .bump .left => (c.leadDistance, c.bumperOffset)
  | .bump .right => (c.leadDistance, -(c.bumperOffset : Int))
  | .bump .both => (c.leadDistance, 0)
  | .stall _ => (c.leadDistance, 0)
  | .jam => (0, 0)

/-- The base pose of a trigger's mark point and its stale flag: the history lookup with the sense frame's age for a
trigger that a sense frame carries, the pose record otherwise (R29). -/
def markBase (p : PoseTracker) (age : Nat) : Hazard → Base × Bool
  | .cliff _ => ageLookup p p.timeCount age
  | .drop _ => ageLookup p p.timeCount age
  | .bump _ => ageLookup p p.timeCount age
  | .stall _ => (p.pose.base, false)
  | .jam => (p.pose.base, false)

/-- The cell of a trigger's mark point and its stale flag (R29, R61). -/
def markPoint (s : State) (age : Nat) (h : Hazard) : Cell × Bool :=
  let b := markBase s.pot age h
  let o := markOffset s.tbs.cal h
  (offsetCell b.1 o.1 o.2, b.2)

/-- The marking event kind of a trigger (R124). -/
def Hazard.kind : Hazard → MarkKind
  | .cliff _ => .cliff
  | .drop _ => .drop
  | .bump _ => .bump
  | .stall _ => .stall
  | .jam => .jam

/-- The learn table's entry for a kind (R9). -/
def LearnTable.entry (t : LearnTable) : MarkKind → Option CellClass
  | .cliff => t.cliff
  | .drop => t.drop
  | .bump => t.bump
  | .stall => t.stall
  | .jam => t.jam

/-! ## The marks list (R62, R63, R64) -/

/-- The marking conditions: the cell's class is not blocking as the table stands, and differs from the class to be
written (R62). -/
def mayMark (response : Vector ResponseRecord 16) (held cls : CellClass) : Bool :=
  !response[held].blocking && held != cls

/-- An unsent record of a cell. -/
def unsentAt (c : CellIndex) (r : MarkRecord) : Bool := !r.sent && r.cell == c

/-- The number of unsent records. -/
def unsentCount (rs : List MarkRecord) : Nat := rs.countP (fun r => !r.sent)

/-- A new unsent record enters the marks list: in place of an unsent record of its cell, else at the end while fewer
than 8 are unsent, else the overflow flag is set (R64). -/
def Marks.add (m : Marks) (r : MarkRecord) : Marks :=
  if m.records.any (unsentAt r.cell) then
    { m with records := m.records.map (fun q => if unsentAt r.cell q then r else q) }
  else if unsentCount m.records < 8 then { m with records := m.records ++ [r] }
  else { m with overflow := true }

/-- A mark of a cell comes together with the building of a LIST of eight that was taken before it: the build was at the time
count of the mark, and the cell is none of the list's, so that the mark, taken first, would have set the overflow flag (R72). -/
def Marks.meetsFullReport (m : Marks) (now : Time) (c : CellIndex) : Bool :=
  m.eightSentAt == some now && m.records.all (fun q => q.cell != c)

/-- A new unsent record comes to the marks list of a SENT slot: it enters as into any list, but a mark that meets the building of
a LIST of eight sets the overflow flag instead (R64, R65, R72). DESIGN CHOICE between rules that disagree on that one mark: its
moment is R72's own case, and at every other moment R64, R65 and R71 hold (notes/assumptions/31.md). -/
def Marks.addSent (now : Time) (m : Marks) (r : MarkRecord) : Marks :=
  if m.meetsFullReport now r.cell then { m with overflow := true } else m.add r

/-- The class of a cell written (R64). -/
def Tile.write (t : Tile) (c : CellIndex) (cls : CellClass) : Tile := { t with cells := t.cells.set c cls }

/-- No marks. -/
def noMarks : Marks := { records := [], overflow := false }

/-! ## The report queue (R67, R68, R69) -/

/-- A key is offered to the report queue (R68). -/
def offerReport (k : TileKey) (s : State) : State :=
  if s.mru.reportQueue.length < 4 && !s.mru.reportQueue.contains k then
    { s with mru := { s.mru with reportQueue := s.mru.reportQueue ++ [k] } }
  else s

/-- A slot becomes MARKED: it joins the end of the marked order and its key is offered (R65, R67, R75). -/
def becomeMarked (i : SlotNo) (t : Tile) (m : Marks) (s : State) : State :=
  offerReport t.key
    { s with twn := s.twn.put i (.marked t m), mru := { s.mru with markedOrder := s.mru.markedOrder ++ [i] } }

/-! ## Mark requests (R60, R61, R64, R65, R66) -/

/-- A mark is recorded in the slot that the lookup hit (R64, R65, R72). -/
def recordMark (i : SlotNo) (r : MarkRecord) (s : State) : State :=
  match s.twn.slot i with
  | .clean t => becomeMarked i (t.write r.cell r.cls) (noMarks.add r) s
  | .marked t m => { s with twn := s.twn.put i (.marked (t.write r.cell r.cls) (m.add r)) }
  | .sent t m => { s with twn := s.twn.put i (.sent (t.write r.cell r.cls) (m.addSent s.pot.timeCount r)) }
  | .empty => s
  | .pending _ _ => s

/-- A mark whose lookup answered unknown is dropped and counted (R66). -/
def dropMark (kind : MarkKind) (k : TileKey) (s : State) : State :=
  raise .markDropped (.mark kind k) { s with mru := { s.mru with dropped := countUp 255 s.mru.dropped } }

/-- A located mark of the learn class: looked up, then dropped, refused by the marking conditions or recorded
(R61, R62). -/
def placeMark (kind : MarkKind) (cls : CellClass) (c : Cell) (stale : Bool) (s : State) : State :=
  match lookup c s with
  | (none, s1) => dropMark kind (c.key s.pot.pose.level) s1
  | (some held, s1) =>
    if mayMark s.tbs.response held cls then
      match s1.twn.find (c.key s.pot.pose.level) with
      | some i => recordMark i { cell := c.index, cls := cls, kind := kind, stale := stale, sent := false } s1
      | none => s1
    else s1

/-- The RFX asks for a trigger's mark; `age` is the sense frame's age, not read for a stall or a jam (R60). -/
def requestMark (h : Hazard) (age : Nat) (s : State) : State :=
  if s.pot.pose.valid then
    match s.tbs.learn.entry h.kind with
    | none => s
    | some cls => placeMark h.kind cls (markPoint s age h).1 (markPoint s age h).2 s
  else s

/-! ## Refusals (R73) -/

/-- A TILE_RETRY waits, unless one for the same key and reason does already (R73). -/
def queueRetry (f : RetryFrame) (s : State) : State :=
  if s.pli.retries.any (fun r => r.key == f.key && r.reason == f.reason) then s
  else { s with pli := { s.pli with retries := s.pli.retries ++ [f] } }

/-- A TILE or TILE_DROP is refused because the slot is MARKED (R52, R55, R73). -/
def refuseMarked (refused : RefusedFrame) (t : Tile) (s : State) : State :=
  offerReport t.key
    (queueRetry { key := t.key, reason := .marked, refused := refused, generation := t.generation } s)

/-- A TILE is refused because its generation is the SENT slot's own (R52, R73). -/
def refuseStale (t : Tile) (s : State) : State :=
  queueRetry { key := t.key, reason := .stale, refused := .tile, generation := t.generation } s

/-! ## The merged tile (R74, R75) -/

/-- The records of a SENT slot worked through over new contents: the cells and the unsent records that remain (R74). -/
def reapply (response : Vector ResponseRecord 16) : List MarkRecord → Cells → List MarkRecord × Cells
  | [], cells => ([], cells)
  | r :: rest, cells =>
    if !r.sent && mayMark response cells[r.cell] r.cls then
      let next := reapply response rest (cells.set r.cell r.cls)
      (r :: next.1, next.2)
    else reapply response rest cells

/-- A tile with a new generation meets a SENT slot: MARKED when an unsent mark remains, CLEAN otherwise (R52, R75). -/
def mergeTile (i : SlotNo) (t : Tile) (m : Marks) (s : State) : State :=
  let kept := reapply s.tbs.response m.records t.cells
  let s1 := { s with twn := s.twn.touch i }
  if kept.1.isEmpty then { s1 with twn := s1.twn.put i (.clean t) }
  else becomeMarked i { t with cells := kept.2 } { m with records := kept.1, eightSentAt := none } s1

/-! ## Reports (R69, R70, R71) -/

/-- The REPORT of a MARKED slot: a LIST of its unsent records, or an IMAGE after an overflow (R70). -/
def buildReport (t : Tile) (m : Marks) : ReportFrame :=
  { key := t.key
    baseGeneration := t.generation
    body := if m.overflow then .image t.cells else .list (m.records.filter (fun r => !r.sent)) }

/-- The marks of a slot once its report is built at a time count (R71), with that time count after a LIST of eight (R72). -/
def Marks.afterReport (now : Time) (m : Marks) : Marks :=
  { records := m.records.map (fun r => { r with sent := true })
    overflow := false
    eightSentAt := if m.overflow = false ∧ unsentCount m.records = 8 then some now else none }

/-- The key that enters the report queue as one leaves: the first MARKED slot of the marked order whose key is not in
the queue (R69). -/
def refillKey (w : TileWindow) (order : List SlotNo) (queue : List TileKey) : Option TileKey :=
  order.findSome? (fun i =>
    match w.slot i with
    | .marked t _ => if queue.contains t.key then none else some t.key
    | _ => none)

/-- The slot and both queues once its report is built; `rest` is the report queue behind its head (R71). -/
def afterReport (i : SlotNo) (t : Tile) (m : Marks) (rest : List TileKey) (s : State) : State :=
  let w := s.twn.put i (.sent t (m.afterReport s.pot.timeCount))
  let order := s.mru.markedOrder.erase i
  { s with
    twn := w
    mru := { s.mru with markedOrder := order, reportQueue := rest ++ (refillKey w order rest).toList } }

end Sys2Proof.Machine
end

