-- ==== Sys2Proof/Machine/Reflex.lean ====
section
/-! DEFINITION. The Reflex Unit: arming, firing, reflex entry, second causes, cliff trust, suspicions, LIFTED and the
back-off (chapter 7). -/

namespace Sys2Proof.Machine

/-! ## Triggers (R124) -/

/-- The event of a trigger (R124). -/
def Hazard.event : Hazard → EventKind
  | .cliff _ => .cliff
  | .drop _ => .wheelDrop
  | .bump _ => .bump
  | .stall _ => .stall
  | .jam => .brushJam

/-- The DOCK_FAIL reason of a reflex that ends an approach (R139). -/
def Hazard.dockFailure : Hazard → DockFailure
  | .cliff _ => .cliff
  | _ => .reflex

/-- The trigger's event is raised with its side, wheel or sensor and the discarded count, if an entry was made (R124). -/
def raiseHazard (h : Hazard) (discarded : Option Nat) (s : State) : State :=
  raise h.event (.hazard h discarded) s

/-- The reflex phase replaced. -/
def withPhase (p : ReflexPhase) (s : State) : State := { s with rfx := { s.rfx with phase := p } }

/-- The changes of state at a reflex entry: REFLEX in phase HALT, the segments discarded, the suspect records closed, the
DAU's phase left, and one zero setpoint frame (R126). -/
def haltFor (h : Hazard) (s : State) : State :=
  sendZero (withPhase (.halt h) (enterDiscarding .reflex s))

/-- A reflex entry: the changes, the cause's event, in APPROACH DOCK_FAIL, and the cause's mark (R126, R139). DESIGN CHOICE
for the place of DOCK_FAIL between event and mark (notes/assumptions/14.md). -/
def enterReflex (h : Hazard) (age : Nat) (s : State) : State :=
  let s1 := raiseHazard h (some (discardCount s)) (haltFor h s)
  let s2 := if s.rct.state = .approach then raise .dockFail (.dockFailure h.dockFailure) s1 else s1
  requestMark h age s2

/-- A second cause: a zero setpoint frame, the back-off ended, HOLD, the cause's event and REFLEX_ABORTED, and its mark
(R137). -/
def abortReflex (h : Hazard) (age : Nat) (s : State) : State :=
  requestMark h age (raise .reflexAborted (.cause h) (raiseHazard h none (changeRun .hold (sendZero s))))

/-- A firing by the run state as it stands. `entry` is the discarded count of the reflex entry that the same frame has
made, if any: then the firing is a later input of that cause. Answers the new state and the frame's entry (R124, R125,
R126, R137). -/
def fire (h : Hazard) (age : Nat) (entry : Option Nat) (s : State) : State × Option Nat :=
  match entry with
  | some d => (requestMark h age (raiseHazard h (some d) s), some d)
  | none =>
    match s.rct.state with
    | .idle | .hold | .docked => (raiseHazard h none s, none)
    | .run | .creep | .step | .homing | .undocking | .approach => (enterReflex h age s, some (discardCount s))
    | .reflex => (abortReflex h age s, none)
    | .loading | .lifted | .fault => (s, none)

/-- Inputs fire in the current run state: not in LOADING, LIFTED and FAULT (R123, R124). -/
def mayFire (s : State) : Bool :=
  match s.rct.state with
  | .loading | .lifted | .fault => false
  | _ => true

/-! ## Arming (R123) -/

/-- The armed flags replaced. -/
def withArmed (a : Armed) (s : State) : State := { s with rfx := { s.rfx with armed := a } }

/-- The armed flag after an arrival on which the input does not fire for want of being allowed to: set by an absent
signal, left by a present one (R123). -/
def rearm (armed present : Bool) : Bool := armed || !present

/-- The armed flag after an arrival on which a present, armed input fires: cleared by a present signal, set by an absent
one (R123). -/
def afterArrival (present : Bool) : Bool := !present

/-- The side that a pair of firings makes (R125); DEDUCED: of the inputs that fire (notes/assumptions/13.md). -/
def sideOf (left right : Bool) : Option Side :=
  match left, right with
  | true, true => some .both
  | true, false => some .left
  | false, true => some .right
  | false, false => none

/-- A cliff reflectance of a sense frame. -/
def reflectance (f : SenseFrame) : CliffSensor → Nat
  | .fl => f.cliffFL
  | .fr => f.cliffFR
  | .sl => f.cliffSL
  | .sr => f.cliffSR

/-- A low reading: below the stored cliff threshold (R122). -/
def lowReading (s : State) (f : SenseFrame) (x : CliffSensor) : Bool := reflectance f x < s.tbs.cal.cliffThreshold

/-- The cliff sensors in their order (R125). -/
def cliffSensors : List CliffSensor := [.fl, .fr, .sl, .sr]

/-- The sense-frame inputs written without firing: an absent signal arms, a present one leaves the flag (R123, R125). -/
def rearmSense (f : SenseFrame) (s : State) : State :=
  let a := s.rfx.armed
  withArmed
    { a with
      bumperLeft := rearm a.bumperLeft f.bumperLeft
      bumperRight := rearm a.bumperRight f.bumperRight
      dropLeft := rearm a.dropLeft f.dropLeft
      dropRight := rearm a.dropRight f.dropRight
      cliff :=
        { fl := rearm a.cliff.fl (lowReading s f .fl)
          fr := rearm a.cliff.fr (lowReading s f .fr)
          sl := rearm a.cliff.sl (lowReading s f .sl)
          sr := rearm a.cliff.sr (lowReading s f .sr) } } s

/-! ## LIFTED (R138) -/

/-- The entry to LIFTED on both wheels dropped (R138). -/
def enterLifted (s : State) : State :=
  raise .lifted (.discarded (discardCount s)) (sendZero (enterDiscarding .lifted s))

/-- The end of LIFTED on both wheels down (R138, R30). -/
def endLifted (s : State) : State := losePose (changeRun .hold s)

/-! ## A single wheel drop and the bumpers (R125, R129, R130, R139) -/

/-- The single wheel drop of a frame, on which the two wheels are not both dropped (R130). -/
def dropInput (f : SenseFrame) (s : State) : State × Option Nat :=
  let a := s.rfx.armed
  let s1 := withArmed { a with dropLeft := afterArrival f.dropLeft, dropRight := afterArrival f.dropRight } s
  if f.dropLeft && a.dropLeft then fire (.drop .left) f.age none s1
  else if f.dropRight && a.dropRight then fire (.drop .right) f.age none s1
  else (s1, none)

/-- A bumper that fires in APPROACH: with the dock contact no event; without it an approach bump, with BUMP, no mark and
no discard (R139). -/
def approachBump (side : Side) (contact : Bool) (s : State) : State :=
  if contact then s
  else
    dockBump (raiseHazard (.bump side) none
      { s with rfx := { s.rfx with approachBumps := min 3 (s.rfx.approachBumps + 1) } })

/-- The bumpers of a frame; `entry` is the frame's reflex entry so far (R125, R129, R139). -/
def bumperInput (f : SenseFrame) (entry : Option Nat) (s : State) : State × Option Nat :=
  let a := s.rfx.armed
  let s1 := withArmed { a with bumperLeft := afterArrival f.bumperLeft, bumperRight := afterArrival f.bumperRight } s
  match sideOf (f.bumperLeft && a.bumperLeft) (f.bumperRight && a.bumperRight) with
  | none => (s1, entry)
  | some side =>
    if s1.rct.state = .approach && entry.isNone then (approachBump side f.contact s1, none)
    else fire (.bump side) f.age entry s1

/-! ## Cliff trust (R133) -/

/-- The 24 other cells of the square neighbourhood of side 5, by row and then by column, lowest first; none for a cell off
the level (R3, R133). -/
def neighbourhood (c : Cell) : List (Option Cell) :=
  [-2, -1, 0, 1, 2].flatMap (fun (dr : Int) =>
    ([-2, -1, 0, 1, 2].filter (fun (dc : Int) => !(dr == 0 && dc == 0))).map (fun dc => cellAt (c.col + dc) (c.row + dr)))

/-- The cells of a list are looked up in order until one is unknown or of an edge class; whether none is (R133). -/
def noEdgeNear : List (Option Cell) → State → Bool × State
  | [], s => (true, s)
  | c :: rest, s =>
    let r := lookupOrOffMap c s
    match r.1 with
    | none => (false, r.2)
    | some cls => if (responseOf r.2 cls).edge then (false, r.2) else noEdgeNear rest r.2

/-- The judgement of a cliff firing's trust: true for CONFIRM (R133). When the own cell's trust is CONFIRM the other 24 cells
are looked up; DEDUCED: an edge class at the own cell fails the judgement and stops none of those lookups
(notes/assumptions/16.md). -/
def judgeTrust (x : CliffSensor) (s : State) : Bool × State :=
  if s.pot.pose.valid then
    let o := sensorOffset s.tbs.cal x
    let c := offsetCell s.pot.pose.base o.1 o.2
    let r := lookup c s
    match r.1 with
    | none => (false, r.2)
    | some cls =>
      if (responseOf r.2 cls).trust = .confirm then
        let others := noEdgeNear (neighbourhood c) r.2
        (!(responseOf r.2 cls).edge && others.1, others.2)
      else (false, r.2)
  else (false, s)

/-- A sensor's suspect record replaced. -/
def withSuspect (x : CliffSensor) (m : Option Measure) (s : State) : State :=
  { s with rfx := { s.rfx with suspects := s.rfx.suspects.set x m } }

/-- A sensor's armed flag replaced. -/
def withCliffArmed (x : CliffSensor) (armed : Bool) (s : State) : State :=
  withArmed { s.rfx.armed with cliff := s.rfx.armed.cliff.set x armed } s

/-- Trust is judged in these states; in the others a cliff firing is IMMEDIATE, or an event only (R133, R124). -/
def judgesTrust : RunState → Bool
  | .undocking => true
  | r => r.moving

/-- One cliff sensor of a frame: an absent signal arms it; a firing is judged for trust, and fires at once or opens the
sensor's suspect record (R133, R134). -/
def cliffInput (f : SenseFrame) (x : CliffSensor) (entry : Option Nat) (s : State) : State × Option Nat :=
  if !lowReading s f x then (withCliffArmed x true s, entry)
  else if !s.rfx.armed.cliff.get x then (s, entry)
  else
    let s1 := withCliffArmed x false s
    if entry.isNone && judgesTrust s1.rct.state then
      let t := judgeTrust x s1
      if t.1 then (withSuspect x (some { travel := 0, start := t.2.pot.timeCount }) t.2, none)
      else fire (.cliff x) f.age none t.2
    else fire (.cliff x) f.age entry s1

/-- An active suspicion has reached its confirm distance or confirm time (R135). -/
def suspicionRipe (s : State) (m : Measure) : Bool :=
  2048 * s.tbs.cal.confirmDistance ≤ m.travel || 2 * s.tbs.cal.confirmTime ≤ elapsed s.pot.timeCount m.start

/-- One active suspect record judged at a frame: confirmed, kept, or discounted (R135). -/
def judgeSuspect (f : SenseFrame) (x : CliffSensor) (entry : Option Nat) (s : State) : State × Option Nat :=
  match s.rfx.suspects.get x with
  | none => (s, entry)
  | some m =>
    if !lowReading s f x then
      (raise .cliffDiscounted (.sensor x) (withCliffArmed x true (withSuspect x none s)), entry)
    else if suspicionRipe s m then fire (.cliff x) f.age entry (withSuspect x none s)
    else (s, entry)

/-- The firings of a frame in their order: a single wheel drop, the bumpers, the cliff sensors, then the suspect records
(R125, R135). -/
def fireSense (f : SenseFrame) (s : State) : State :=
  let drop := dropInput f s
  let bump := bumperInput f drop.2 drop.1
  let cliffs := cliffSensors.foldl (fun r x => cliffInput f x r.2 r.1) bump
  (cliffSensors.foldl (fun r x => judgeSuspect f x r.2 r.1) cliffs).1

/-- The RFX takes a sense frame's hazard fields (R122 to R125, R138). DEDUCED: on the frame that ends LIFTED no input
fires, as the state at its arrival is LIFTED (notes/assumptions/12.md). -/
def senseHazards (f : SenseFrame) (s : State) : State :=
  if f.dropLeft && f.dropRight then
    if mayFire s then enterLifted (rearmSense f s) else rearmSense f s
  else if s.rct.state = .lifted then
    if !f.dropLeft && !f.dropRight then endLifted (rearmSense f s) else rearmSense f s
  else if mayFire s then fireSense f s
  else rearmSense f s

/-! ## Stall and jam (R131, R132) -/

/-- The stall flags of an odometry reply (R131). -/
def stallInput (left right : Bool) (s : State) : State :=
  let a := s.rfx.armed
  if mayFire s then
    let s1 := withArmed { a with stallLeft := afterArrival left, stallRight := afterArrival right } s
    match sideOf (left && a.stallLeft) (right && a.stallRight) with
    | some side => (fire (.stall side) 0 none s1).1
    | none => s1
  else withArmed { a with stallLeft := rearm a.stallLeft left, stallRight := rearm a.stallRight right } s

/-- The jam flag of a brush status (R132). -/
def jamInput (jam : Bool) (s : State) : State :=
  let a := s.rfx.armed
  if mayFire s then
    let s1 := withArmed { a with jam := afterArrival jam } s
    if jam && a.jam then (fire .jam 0 none s1).1 else s1
  else withArmed { a with jam := rearm a.jam jam } s

/-! ## The back-off and the suspicions' travel (R24, R127, R128) -/

/-- A travel figure added to a measure (R24). -/
def Measure.add (m : Measure) (figure : Nat) : Measure := { m with travel := m.travel + figure }

/-- HALT becomes BACK at a control period expiry (R127). -/
def beginBackOff (s : State) : State :=
  match s.rfx.phase with
  | .halt h => withPhase (.back h { travel := 0, start := s.pot.timeCount }) s
  | .none => s
  | .back _ _ => s

/-- The back-off ends: HOLD, the phase cleared (R128). -/
def endBackOff (s : State) : State := changeRun .hold s

/-- A travel figure joins the back-off's sum, which may end it by distance (R24, R128). -/
def backOffTravel (figure : Nat) (s : State) : State :=
  match s.rfx.phase with
  | .back h m =>
    if 2048 * s.tbs.cal.backOffDistance ≤ m.travel + figure then endBackOff s else withPhase (.back h (m.add figure)) s
  | .none => s
  | .halt _ => s

/-- A travel figure joins every active suspect record's sum (R24, R134). -/
def suspectTravel (figure : Nat) (s : State) : State :=
  { s with rfx := { s.rfx with suspects := s.rfx.suspects.map (Option.map (fun m => m.add figure)) } }

/-- A travel figure joins the reverse measure of BUMP_REVERSE or UNDOCKING, which may end it by distance (R24, R149,
R154). -/
def reverseTravel (figure : Nat) (s : State) : State :=
  match s.dau.reverse with
  | none => s
  | some m =>
    if s.dau.phase = .bumpReverse then
      if 2048 * s.tbs.cal.backOffDistance ≤ m.travel + figure then endBumpReverse s
      else withDock { s.dau with reverse := some (m.add figure) } s
    else if s.rct.state = .undocking then
      if 2048 * s.tbs.cal.undockDistance ≤ m.travel + figure then endUndock s
      else withDock { s.dau with reverse := some (m.add figure) } s
    else s

end Sys2Proof.Machine
end

