-- ==== Sys2Proof/Machine/Links.lean ====
section
/-! DEFINITION. The Drive Link and the Sense Port: the frames of an expiry, the brush reservation, the odometry reply, the
brush status and the sense frame handed on, and the watches (chapter 9). -/

namespace Sys2Proof.Machine

/-! ## The brush (R160, R161, R162) -/

/-- The DLI takes the gate's brush wish at an expiry and sends the brush frame: NULL, or the wish when the brush is
unreserved and in another state (R161). -/
def takeWish (w : BrushState) (s : State) : State :=
  let s1 := { s with dli := { s.dli with lastWish := w } }
  match s.dli.reservation with
  | none => if w = s.dli.brushState then sendDrive (.brush none) s1 else sendBrushCommand w s1
  | some r =>
    sendDrive (.brush none)
      { s1 with dli := { s1.dli with pendingBrush := if w = r.commanded then none else some w } }

/-- The reservation is released. -/
def releaseBrush (s : State) : State := { s with dli := { s.dli with reservation := none } }

/-- The brush record at a brush status: the state stored, and a confirmed change released, with a pending state sent at
once (R160). -/
def brushReport (b : BrushState) (s : State) : State :=
  let s1 := { s with dli := { s.dli with brushState := b } }
  match s.dli.reservation with
  | none => s1
  | some r =>
    if b = r.commanded then
      match s.dli.pendingBrush with
      | some p => sendBrushCommand p (releaseBrush s1)
      | none => releaseBrush s1
    else s1

/-- The brush timeout has been reached (R162). -/
def brushDue (s : State) : Option BrushState :=
  match s.dli.reservation with
  | none => none
  | some r =>
    if 2 * s.tbs.cal.brushTimeout ≤ elapsed s.pot.timeCount r.sentAt then some r.commanded else none

/-- The brush timeout expires: BRUSH_NO_ACK, release, and the pending state, or else the last wish, sent at once (R162). -/
def expireBrush (commanded : BrushState) (s : State) : State :=
  let s1 := releaseBrush (raise .brushNoAck (.brush commanded) s)
  sendBrushCommand (s.dli.pendingBrush.getD s.dli.lastWish) s1

/-! ## Replies and frames handed on (R159, R160, R163) -/

/-- The travel figure |S| x Lt of a reply (R24). -/
def travelFigure (s : State) (ticks : Int) : Nat := ticks.natAbs * s.tbs.cal.tickLength

/-- The travel figure is handed to every holder (R24). -/
def handTravel (figure : Nat) (s : State) : State :=
  reverseTravel figure (suspectTravel figure (backOffTravel figure (segmentTravel figure s)))

/-- Read-ahead, when the centre cell has changed from `before` with the pose valid (R25, R46). -/
def readAheadFrom (before : Cell) (s : State) : State :=
  if s.pot.pose.valid && s.pot.pose.centre != before then readAhead s else s

/-- The POT takes an odometry reply: position, history entry, travel figure, read-ahead (R25). -/
def trackReply (ticks : Int) (s : State) : State :=
  readAheadFrom s.pot.pose.centre (handTravel (travelFigure s ticks) (appendHistory (movePosition ticks s)))

/-- The Drive Link's watch becomes UP, its timer started now (R164). -/
def driveUp (s : State) : State := { s with dli := { s.dli with watch := .up s.pot.timeCount } }

/-- The Sense Port's watch becomes UP, its timer started now, and the frame's dock contact is stored (R163, R164). -/
def senseUp (contact : Bool) (s : State) : State :=
  { s with snp := { s.snp with watch := .up s.pot.timeCount, lastContact := contact } }

/-- A good odometry reply (R159). -/
def takeReply (tL tR : Int) (stallLeft stallRight : Bool) (s : State) : State :=
  stallInput stallLeft stallRight (trackReply (tL + tR) (driveUp s))

/-- A good brush status (R160). -/
def takeBrushStatus (b : BrushState) (jam : Bool) (s : State) : State := jamInput jam (brushReport b s)

/-- A good sense frame: the yaw increment to the POT, the hazard fields to the RFX, the dock fields to the DAU (R163). -/
def takeSense (f : SenseFrame) (s : State) : State :=
  dockFrame f (senseHazards f (turnHeading f.yaw (senseUp f.contact s)))

/-! ## Losing a line (R164) -/

/-- The watch on a line. -/
def watchOf (s : State) : Line → Watch
  | .drive => s.dli.watch
  | .sense => s.snp.watch

/-- The timeout of a line, in ms (R164). -/
def lineTimeout (s : State) : Line → Nat
  | .drive => s.tbs.cal.driveTimeout
  | .sense => s.tbs.cal.senseTimeout

/-- A line's watch timer has reached its timeout (R164). -/
def linkDue (s : State) (l : Line) : Bool :=
  match (watchOf s l).timer? with
  | some t => 2 * lineTimeout s l ≤ elapsed s.pot.timeCount t
  | none => false

/-- The event of a line's loss (R164). -/
def lossEvent : Line → EventKind
  | .drive => .driveLost
  | .sense => .senseLost

/-- The detail of a line's loss: "stopped" when the watch was UP, "never answered" when it was WAITING (R164). -/
def lossDetail (w : Watch) : Detail := if w.isUp then .stopped else .neverAnswered

/-- The watch of a line becomes LOST (R164). -/
def loseWatch : Line → State → State
  | .drive, s => { s with dli := { s.dli with watch := .lost } }
  | .sense, s => { s with snp := { s.snp with watch := .lost } }

/-- The expiry of a line's watch: LOST, the event, and FAULT (R164, R117). -/
def loseLine (l : Line) (s : State) : State :=
  enterFault (raise (lossEvent l) (lossDetail (watchOf s l)) (loseWatch l s))

/-- What Restart does to a watch: LOST becomes WAITING from now; `off`, WAITING and UP stay (R164). -/
def Watch.restarted (w : Watch) (now : Time) : Watch :=
  match w with
  | .lost => .waiting now
  | other => other

end Sys2Proof.Machine
end

