-- ==== Sys2Proof/Machine/Plan.lean ====
section
/-! DEFINITION. The Plan Link's transmit side: the arbiter, the STATUS frame, and the treatment of a frame that arrives on
the Plan Link (sections 10.1 to 10.3). -/

namespace Sys2Proof.Machine

/-! ## STATUS (R172) -/

/-- The numbers of slots in each state (R172). -/
def TileWindow.counts (w : TileWindow) : SlotCounts :=
  { empty := w.count Slot.isEmpty, pending := w.count Slot.isPending, clean := w.count Slot.isClean,
    marked := w.count Slot.isMarked, sent := w.count Slot.isSent }

/-- The STATUS frame of the state at this moment (R172). -/
def statusOf (s : State) : StatusFrame :=
  { run := s.rct.state
    creep := s.rct.creep
    pose := s.pot.pose
    segmentFree := 8 - s.mgt.queue.length
    modeFree := 3 - s.rct.modeQueue.length
    reportDepth := s.mru.reportQueue.length
    currentTag := s.mgt.current.bind (fun c => c.segment.tag)
    completed := s.mgt.completed
    gate := s.mgt.result
    slots := s.twn.counts
    events := s.evu.shown
    planErrors := s.pli.errors
    driveErrors := s.dli.errors
    senseErrors := s.snp.errors
    marksDropped := s.mru.dropped
    unsolicited := s.twn.unsolicited
    brush := s.dli.brushState
    reserved := s.dli.reservation.map (fun r => r.commanded)
    contact := s.snp.lastContact }

/-- A STATUS frame is made to wait, or folds into the one that waits (R172, R173). -/
def requestStatus (s : State) : State := { s with pli := { s.pli with statusWaits := true } }

/-- A frame begins to leave on the Plan Link. -/
def beginLeaving (f : PlanFrame) (s : State) : State := { s with pli := { s.pli with leaving := some f } }

/-- The STATUS frame is built and begins to leave; in ON_STATUS mode every flag is cleared (R172, R175). -/
def sendStatus (s : State) : State :=
  let s1 := { s with
    evu := if s.evu.clearMode = .onStatus then s.evu.clearAll else s.evu
    pli := { s.pli with statusWaits := false } }
  beginLeaving (.status (statusOf s)) s1

/-- The REPORT for the head of the report queue is built and begins to leave; a key with no MARKED slot leaves the queue
unsent, which no run reaches (R70, R71, notes/assumptions/25.md). -/
def sendReport (k : TileKey) (rest : List TileKey) (s : State) : State :=
  let without := { s with mru := { s.mru with reportQueue := rest } }
  match s.twn.find k with
  | none => without
  | some i =>
    match s.twn.slot i with
    | .marked t m => beginLeaving (.report (buildReport t m)) (afterReport i t m rest s)
    | _ => without

/-- The arbiter's choice with the transmitter free: the oldest waiting frame of the first kind that has one (R171). -/
def chooseFrame (s : State) : State :=
  match s.pli.events with
  | f :: rest => beginLeaving (.event f) { s with pli := { s.pli with events := rest } }
  | [] =>
    match s.pli.retries with
    | f :: rest => beginLeaving (.retry f) { s with pli := { s.pli with retries := rest } }
    | [] =>
      match s.pli.answers with
      | f :: rest => beginLeaving (.answer f) { s with pli := { s.pli with answers := rest } }
      | [] =>
        match s.pli.requests with
        | k :: rest => beginLeaving (.request k) { s with pli := { s.pli with requests := rest } }
        | [] =>
          match s.mru.reportQueue with
          | k :: rest => sendReport k rest s
          | [] => if s.pli.statusWaits then sendStatus s else s

/-- At the end of a command, a free transmitter is given a waiting frame (R171). DEDUCED: the choice comes after every
frame of the command waits (R104, notes/assumptions/6.md). -/
def arbitrate (s : State) : State :=
  match s.pli.leaving with
  | some _ => s
  | none => chooseFrame s

/-! ## Frames taken (R168, R169, R170) -/

/-- A frame of the navigation processor: discarded and counted when it is bad or arrives in LOADING, else taken by its
owner, with the arbiter's choice after it (R169, R170, R171). -/
def takePlan (i : Instr) (act : State → State) (s : State) : State :=
  if s.rct.state = .loading || !i.wellFormed then countPlanError s else arbitrate (act s)

/-- A frame of the Drive Link or the Sense Port: discarded in LOADING, discarded and counted when it is bad, else taken,
with the arbiter's choice after it (R166). -/
def takeLine (l : Line) (i : Instr) (act : State → State) (s : State) : State :=
  if s.rct.state = .loading then s else if i.wellFormed then arbitrate (act s) else countLineError l s

end Sys2Proof.Machine
end

