-- ==== Sys2Proof/Machine/Timers.lean ====
section
/-! DEFINITION. The part's timers: when each comes due, what its expiry does, the control period expiry, and the advance of
the time count (R13, R20, R88, and the rules of each timer). -/

namespace Sys2Proof.Machine

/-! ## When each timer is due -/

/-- The running control period has lasted its length; none while the timer does not run (R88). -/
def periodDue (s : State) : Option Nat :=
  match s.mgt.period with
  | none => none
  | some p => if 2 * p.length ≤ elapsed s.pot.timeCount p.start then some p.length else none

/-- The back-off has lasted the back-off time limit (R128). -/
def backOffDue (s : State) : Bool :=
  match s.rfx.phase with
  | .back _ m => 2 * s.tbs.cal.backOffTimeLimit ≤ elapsed s.pot.timeCount m.start
  | _ => false

/-- The lost-beacon timer, in TRACK, has reached the beacon lost time (R147). -/
def beaconDue (s : State) : Bool :=
  s.dau.phase == .track &&
    match s.dau.beaconTimer with
    | some t => 2 * s.tbs.cal.beaconLostTime ≤ elapsed s.pot.timeCount t
    | none => false

/-- The time since the reverse measure's start, when there is one. -/
def reverseTime (s : State) : Option Nat := s.dau.reverse.map (fun m => elapsed s.pot.timeCount m.start)

/-- BUMP_REVERSE has lasted the back-off time limit (R149). -/
def bumpReverseDue (s : State) : Bool :=
  s.dau.phase == .bumpReverse &&
    match reverseTime s with
    | some t => 2 * s.tbs.cal.backOffTimeLimit ≤ t
    | none => false

/-- The undock has lasted six times the back-off time limit, in time count units (R154). -/
def undockDue (s : State) : Bool :=
  s.rct.state == .undocking &&
    match reverseTime s with
    | some t => 6 * s.tbs.cal.backOffTimeLimit ≤ t
    | none => false

/-- The status timer has reached a status interval that is not 0, after LOADING (R173). -/
def statusDue (s : State) : Bool :=
  s.rct.state != .loading && s.tbs.cal.statusInterval != 0
    && 2 * s.tbs.cal.statusInterval ≤ elapsed s.pot.timeCount s.pli.statusStart

/-! ## What an expiry does -/

/-- The lost-beacon expiry: SEARCH, the timer stopped, the search turn sum 0 (R147). -/
def beginSearch (s : State) : State :=
  withDock { s.dau with phase := .search, beaconTimer := none, searchTurn := 0 } s

/-- The status interval: a STATUS frame waits and the interval starts anew (R173). -/
def statusTick (s : State) : State :=
  requestStatus { s with pli := { s.pli with statusStart := s.pot.timeCount } }

/-! ## The control period expiry (R88) -/

/-- The gate's pair and brush wish go out: the setpoint frame, then the brush frame; the gate result is stored (R98, R100,
R157). -/
def handOverGate (g : GateOutput) (s : State) : State :=
  let s1 := takeWish g.wish (sendSetpoint g.vL g.vR s)
  { s1 with mgt := { s1.mgt with result := g.result } }

/-- The head taken as current, the gate computation and the hand-over of what it gives (R82, R89, R98). -/
def sendGate (s : State) : State :=
  let out := gateCompute (takeAtExpiry s)
  handOverGate out.1 out.2

/-- The gate's part of an expiry: the computation and its hand-over, then the elapsed time of the period of `length` ms that has
ended (R83). DESIGN CHOICE between a rule and the worked sequence of section 5.2: the period is added to a segment that this same
expiry has taken, as the words of R83 say, where the sequence shows such a segment at 0 ms (notes/assumptions/32.md). -/
def runGate (length : Nat) (s : State) : State := segmentElapsed length (sendGate s)

/-- The oldest mode command is a Step, in RUN or CREEP, where it will be taken (R110). -/
def stepWaits (s : State) : Bool :=
  (s.rct.state == .run || s.rct.state == .creep) && s.rct.modeQueue.head?.any (fun c => c.kind == .step)

/-- The gate's part of an expiry with the RCT's take after the computation. A Step in RUN or CREEP is taken before the segment of
that computation can complete, and finds that segment current, so that either order of the take and the computation gives the
step the same segment (R114). DEDUCED: every other command is taken after the completion (notes/assumptions/18.md). -/
def gateThenTake (length : Nat) (s : State) : State :=
  if stepWaits s then segmentElapsed length (takeMode (sendGate s)) else takeMode (runGate length s)

/-- The changes of phase of an expiry: HALT to BACK, BUMP_HALT to BUMP_REVERSE (R127, R149). -/
def changePhases (s : State) : State := beginBumpReverse (beginBackOff s)

/-- The next period begins, with the stored length (R88, R13). -/
def beginPeriod (s : State) : State :=
  { s with mgt := { s.mgt with period := some { start := s.pot.timeCount, length := s.tbs.cal.controlPeriod } } }

/-- The order of one expiry: whether the RCT's take, and whether the changes of phase, come before the gate (R88). -/
structure ExpiryOrder where
  takeFirst : Bool
  phaseFirst : Bool
  deriving DecidableEq, Repr

/-- One control period expiry in a given order; `length` is the length in ms of the period that ends (R88, R114, R127, R149). -/
def expirePeriod (o : ExpiryOrder) (length : Nat) (s : State) : State :=
  let before := (if o.phaseFirst then changePhases else id) ((if o.takeFirst then takeMode else id) s)
  let gated := if o.takeFirst then runGate length before else gateThenTake length before
  beginPeriod ((if o.phaseFirst then id else changePhases) gated)

/-- The order of the next expiry: free, and consulted only where it can matter, when a mode command waits or a phase is
about to change (R88, R127, R149; notes/assumptions/3.md). -/
def expiryOrder (s : State) : ExpiryOrder :=
  { takeFirst := s.rct.modeQueue.isEmpty || Config.takeBeforeGate s.choices
    phaseFirst :=
      (match s.rfx.phase with | .halt _ => false | _ => s.dau.phase != .bumpHalt) || Config.phaseBeforeGate s.choices }

/-- The counter of free choices moves on. -/
def nextChoice (s : State) : State := { s with choices := s.choices + 1 }

/-! ## The advance of the time count (R20) -/

/-- The commands of the timers that are due now, in the manual's chapter order (R13). -/
def dueCommands (s : State) : List Instr :=
  (slotNumbers.filter (fun i => (requestDue s i).isSome)).map Instr.requestTimeout
    ++ (if (periodDue s).isSome then [.controlPeriodExpiry] else [])
    ++ (if backOffDue s then [.backOffTimeLimit] else [])
    ++ (if beaconDue s then [.lostBeaconExpiry] else [])
    ++ (if bumpReverseDue s then [.bumpReverseTimeLimit] else [])
    ++ (if undockDue s then [.undockTimeLimit] else [])
    ++ (if (brushDue s).isSome then [.brushTimeout] else [])
    ++ (if linkDue s .drive then [.linkTimeout .drive] else [])
    ++ (if linkDue s .sense then [.linkTimeout .sense] else [])
    ++ (if statusDue s then [.statusInterval] else [])

/-- An element put at a place of a list, at its end when the place lies beyond. -/
def insertAt {α : Type} (x : α) : List α → Nat → List α
  | [], _ => [x]
  | y :: rest, 0 => x :: y :: rest
  | y :: rest, n + 1 => y :: insertAt x rest n

/-- The permutation of a list that a number names; every permutation has a number. -/
def arrange {α : Type} : List α → Nat → List α
  | [], _ => []
  | x :: rest, n => insertAt x (arrange rest (n / (rest.length + 1))) (n % (rest.length + 1))

/-- The time count rises by one, and the commands of the timers that come due at this advance wait in a free order
(R20; DESIGN CHOICE, notes/assumptions/1.md and 2.md). -/
def tick (s : State) : State :=
  let s1 := { s with pot := { s.pot with timeCount := s.pot.timeCount + 1 }, choices := s.choices + 1 }
  { s1 with pending := arrange (dueCommands s1) (Config.timerOrder s.choices) }

end Sys2Proof.Machine
end

