-- ==== Sys2Proof/Machine/Resets.lean ====
section
/-! DEFINITION. The meanings of POWER_ON, CONFIG_READ_END and RESTART, block by block (sections 1.9, 1.10, 6.1, 6.9, 10.4). -/

namespace Sys2Proof.Machine

/-! ## Power-on (R104) -/

/-- POWER_ON: every block at its power-on values; the commands that wait and the counter of free choices, which are the
model's own, stay (R104, R177). -/
def execPowerOn (s : State) : Host.Outcome State Fault Refusal :=
  .next { State.reset with choices := s.choices, pending := s.pending }

/-! ## The end of LOADING (R15, R104) -/

/-- The calibration that the power-on read stores (R15). -/
def readCalibration : ConfigRead → Calibration
  | .unanswered => defaultCalibration
  | .answered format values => if format = formatByte then storedCalibration (memoryValues values) else defaultCalibration

/-- CONFIG_DEFAULTED with its detail, when the read stored the defaults (R15, R18). -/
def raiseDefaulted (r : ConfigRead) (s : State) : State :=
  match r with
  | .unanswered => raise .configDefaulted .configNoAnswer s
  | .answered format _ => if format = formatByte then s else raise .configDefaulted .configBadFormat s

/-- The calibration record stored. -/
def storeCalibration (c : Calibration) (s : State) : State := { s with tbs := { s.tbs with cal := c } }

/-- Both watches become WAITING from now, and the status timer starts (R164, R173). -/
def beginWatches (s : State) : State :=
  { s with
    dli := { s.dli with watch := .waiting s.pot.timeCount }
    snp := { s.snp with watch := .waiting s.pot.timeCount }
    pli := { s.pli with statusStart := s.pot.timeCount } }

/-- The end of LOADING: IDLE, the first control period, the watches, POWER_ON and, when the defaults were stored,
CONFIG_DEFAULTED after it (R15, R18, R88, R104, R164, R173, R177). -/
def endLoading (r : ConfigRead) (s : State) : State :=
  raiseDefaulted r
    (raise .powerOn .none (changeRun .idle (beginPeriod (beginWatches (storeCalibration (readCalibration r) s)))))

/-- CONFIG_READ_END: the power-on read ends LOADING; the part makes one read per power-on, so in any other state there is
none to end (R15, R104; notes/assumptions/11.md). -/
def execConfigReadEnd (r : ConfigRead) (s : State) : Host.Outcome State Fault Refusal :=
  .next (if s.rct.state = .loading then arbitrate (endLoading r s) else s)

/-! ## Restart (R120, R177) -/

/-- The blocks' Restart values: POT, TWN, MRU, MGT, RCT, RFX and DAU (R19, R26, R58, R77, R101, R120, R141, R143). -/
def restartBlocks (s : State) : State :=
  { s with
    pot := { s.pot with pose := resetPose, history := [] }
    twn := emptyWindow
    mru := emptyMarkUnit
    mgt := { s.mgt with queue := [], current := none, completed := 0, starved := false, result := stillResult }
    rct := { state := .idle, modeQueue := [], creep := 1, pendingStep := false }
    rfx := { s.rfx with phase := .none, suspects := noSuspects, approachBumps := 0 }
    dau := idleDock }

/-- The lines' Restart values: a LOST watch waits from now, the error counts are 0, TILE_REQUEST, TILE_RETRY and EVENT
frames are withdrawn and every flag is cleared (R45, R73, R164, R166, R167, R177). DESIGN CHOICE: the last setpoints, the
receivers and the Drive Link's waiting frames stay as they stand, for which no rule gives a Restart value
(notes/assumptions/35.md). -/
def restartLines (s : State) : State :=
  { s with
    dli := { s.dli with watch := s.dli.watch.restarted s.pot.timeCount, errors := 0 }
    snp := { s.snp with watch := s.snp.watch.restarted s.pot.timeCount, errors := 0 }
    evu := s.evu.clearAll
    pli := { s.pli with errors := 0, events := [], retries := [], requests := [] } }

/-- A Restart: every block's, then RESTARTED (R177). DEDUCED: the POT's Restart, which makes the pose invalid (R30), comes before
the setting of RESTARTED, so that its EVENT frame carries no pose (notes/assumptions/34.md). -/
def restartPart (s : State) : State := raise .restarted .none (restartLines (restartBlocks s))

/-- RESTART (R120, R177). -/
def execRestart (s : State) : Host.Outcome State Fault Refusal := .next (takePlan .restart restartPart s)

end Sys2Proof.Machine
end

