-- ==== Sys2Proof/Machine/Loads.lean ====
section
/-! DEFINITION. The meanings of the five table loads (R7 to R14). -/

namespace Sys2Proof.Machine

/-- A LOAD_ANSWER waits (R7). -/
def queueAnswer (selector : Selector) (a : Answer) (s : State) : State :=
  { s with pli := { s.pli with answers := s.pli.answers ++ [{ selector := selector, answer := a }] } }

/-- A response table load taken (R8). -/
def loadResponseTable (entries : List ResponseEntry) (s : State) : State :=
  queueAnswer .response (answerOf (entries.any entryMoved))
    { s with tbs := { s.tbs with response := entries.foldl applyEntry s.tbs.response } }

/-- LOAD_RESPONSE (R8). -/
def execLoadResponse (entries : List ResponseEntry) (s : State) : Host.Outcome State Fault Refusal :=
  .next (takePlan (.loadResponse entries) (loadResponseTable entries) s)

/-- A learn table load taken (R9). -/
def loadLearnTable (entries : List LearnEntry) (s : State) : State :=
  queueAnswer .learn (answerOf (entries.any learnMoved))
    { s with tbs := { s.tbs with learn := entries.foldl applyLearn s.tbs.learn } }

/-- LOAD_LEARN (R9). -/
def execLoadLearn (entries : List LearnEntry) (s : State) : Host.Outcome State Fault Refusal :=
  .next (takePlan (.loadLearn entries) (loadLearnTable entries) s)

/-- A braking table load taken (R10). -/
def loadBrakingTable (limits : List Nat) (vclear : Nat) (s : State) : State :=
  queueAnswer .braking (answerOf (brakingMoved limits vclear))
    { s with tbs := { s.tbs with braking := brakingTable limits vclear } }

/-- LOAD_BRAKING (R10). -/
def execLoadBraking (limits : List Nat) (vclear : Nat) (s : State) : Host.Outcome State Fault Refusal :=
  .next (takePlan (.loadBraking limits vclear) (loadBrakingTable limits vclear) s)

/-- A calibration load: stored with clamping in IDLE, with the status interval counted anew, and BUSY in any other state
(R12, R173). -/
def loadCalibrationRecord (values : List Int) (s : State) : State :=
  if s.rct.state = .idle then
    queueAnswer .calibration (answerOf (calibrationMoved values))
      (storeCalibration (storedCalibration values)
        { s with pli := { s.pli with statusStart := s.pot.timeCount } })
  else queueAnswer .calibration .busy s

/-- LOAD_CALIBRATION (R12). -/
def execLoadCalibration (values : List Int) (s : State) : Host.Outcome State Fault Refusal :=
  .next (takePlan (.loadCalibration values) (loadCalibrationRecord values) s)

/-- A dock record load taken (R14). -/
def loadDockRecord (level x y heading code : Nat) (s : State) : State :=
  queueAnswer .dock (answerOf (dockMoved level x y heading code))
    { s with tbs := { s.tbs with dock := dockRecord level x y heading code } }

/-- LOAD_DOCK (R14). -/
def execLoadDock (level x y heading code : Nat) (s : State) : Host.Outcome State Fault Refusal :=
  .next (takePlan (.loadDock level x y heading code) (loadDockRecord level x y heading code) s)

end Sys2Proof.Machine
end

