-- ==== Sys2Proof/Machine/PlanCommands.lean ====
section
/-! DEFINITION. The meanings of the navigation processor's other frames, of a bad Plan Link frame and of the Plan Link
transmitter becoming free (chapters 3, 5, 6 and 10). -/

namespace Sys2Proof.Machine

/-- SEGMENT (R79, R80). -/
def execSegment (vL vR : Int) (kind : LimitKind) (limit : Nat) (brush : Option Nat) (tag : Option Nat) (s : State) :
    Host.Outcome State Fault Refusal :=
  .next (takePlan (.segment vL vR kind limit brush tag) (queueSegment (segmentRecord vL vR kind limit brush tag)) s)

/-- START (R105). -/
def execStart (s : State) : Host.Outcome State Fault Refusal := .next (takePlan .start takeStart s)

/-- MODE (R108). -/
def execMode (kind : ModeKind) (factor : Nat) (s : State) : Host.Outcome State Fault Refusal :=
  .next (takePlan (.mode kind factor) (queueMode kind factor) s)

/-- The tile that a TILE frame's contents make: a FULL frame's classes, or a UNIFORM frame's class in all 256 cells
(R50). -/
def tileOf (key : TileKey) (generation : Nat) (contents : TileContents) : Tile :=
  { key := key
    generation := generation
    cells := match contents with
      | .full classes => classes
      | .uniform c => Vector.replicate 256 (Fin.ofNat 16 c) }

/-- A tile for a key that has no slot: into the lowest EMPTY slot as CLEAN, or discarded and counted (R53). -/
def takeUnsolicited (t : Tile) (s : State) : State :=
  match s.twn.lowestEmpty with
  | some i => { s with twn := s.twn.occupy i (.clean t) }
  | none => { s with twn := s.twn.discardArrival }

/-- A tile arrival on the slot that holds its key (R51, R52). -/
def takeAtSlot (i : SlotNo) (t : Tile) (s : State) : State :=
  match s.twn.slot i with
  | .empty => s
  | .pending k _ => withdrawTileRequest k { s with twn := s.twn.occupy i (.clean t) }
  | .clean _ => { s with twn := s.twn.occupy i (.clean t) }
  | .marked held _ => refuseMarked .tile held s
  | .sent held m => if t.generation = held.generation then refuseStale held s else mergeTile i t m s

/-- A tile arrival: another level's is discarded and counted (R50). -/
def takeTile (t : Tile) (s : State) : State :=
  if t.key.level = s.pot.pose.level then
    match s.twn.find t.key with
    | some i => takeAtSlot i t s
    | none => takeUnsolicited t s
  else { s with twn := s.twn.discardArrival }

/-- TILE (R50). -/
def execTile (key : TileKey) (generation : Nat) (contents : TileContents) (s : State) :
    Host.Outcome State Fault Refusal :=
  .next (takePlan (.tile key generation contents) (takeTile (tileOf key generation contents)) s)

/-- A Tile Drop by the state of the slot that holds its key (R55). -/
def dropTile (key : TileKey) (s : State) : State :=
  match s.twn.find key with
  | none => s
  | some i =>
    match s.twn.slot i with
    | .clean _ => { s with twn := s.twn.vacate i }
    | .sent _ _ => { s with twn := s.twn.vacate i }
    | .marked t _ => refuseMarked .tileDrop t s
    | .pending _ _ => s
    | .empty => s

/-- TILE_DROP (R55). -/
def execTileDrop (key : TileKey) (s : State) : Host.Outcome State Fault Refusal :=
  .next (takePlan (.tileDrop key) (dropTile key) s)

/-- SET_POSE (R31, R32). -/
def execSetPose (level x y heading : Nat) (s : State) : Host.Outcome State Fault Refusal :=
  .next (takePlan (.setPose level x y heading) (takeSetPose level x y heading) s)

/-- STATUS_REQUEST (R173). -/
def execStatusRequest (s : State) : Host.Outcome State Fault Refusal := .next (takePlan .statusRequest requestStatus s)

/-- EVENT_MASK (R175). -/
def execEventMask (mode : ClearMode) (kinds : List EventKind) (s : State) : Host.Outcome State Fault Refusal :=
  .next (takePlan (.eventMask mode kinds) (fun s => { s with evu := s.evu.setMasks mode kinds }) s)

/-- EVENT_CLEAR (R175). -/
def execEventClear (kinds : List EventKind) (s : State) : Host.Outcome State Fault Refusal :=
  .next (takePlan (.eventClear kinds) (fun s => { s with evu := s.evu.clearListed kinds }) s)

/-- FORCE_EVENT: an occurrence with the detail "forced" and nothing else (R176). -/
def execForceEvent (kind : EventKind) (s : State) : Host.Outcome State Fault Refusal :=
  .next (takePlan (.forceEvent kind) (raise kind .forced) s)

/-- PLAN_BAD_FRAME: discarded and counted in every run state (R169). -/
def execPlanBadFrame (s : State) : Host.Outcome State Fault Refusal := .next (countPlanError s)

/-- PLAN_TRANSMITTER_FREE: the frame that was leaving has left, and the arbiter chooses (R171). -/
def execPlanTransmitterFree (s : State) : Host.Outcome State Fault Refusal :=
  .next (chooseFrame { s with pli := { s.pli with leaving := none } })

end Sys2Proof.Machine
end

