-- ==== Sys2Proof/Machine/LineCommands.lean ====
section
/-! DEFINITION. The meanings of the frames of the Drive Link and the Sense Port, of a bad frame there, and of the Drive Link
transmitter becoming free (chapter 9). -/

namespace Sys2Proof.Machine

/-- ODOMETRY_REPLY (R159). -/
def execOdometryReply (tL tR : Int) (stallLeft stallRight : Bool) (s : State) : Host.Outcome State Fault Refusal :=
  .next (takeLine .drive (.odometryReply tL tR stallLeft stallRight) (takeReply tL tR stallLeft stallRight) s)

/-- BRUSH_STATUS (R160). -/
def execBrushStatus (b : BrushState) (jam : Bool) (s : State) : Host.Outcome State Fault Refusal :=
  .next (takeLine .drive (.brushStatus b jam) (takeBrushStatus b jam) s)

/-- SENSE_FRAME (R163). -/
def execSenseFrame (f : SenseFrame) (s : State) : Host.Outcome State Fault Refusal :=
  .next (takeLine .sense (.senseFrame f) (takeSense f) s)

/-- LINK_BAD_FRAME: discarded whole and counted, and in LOADING discarded without a count (R166). -/
def execLinkBadFrame (l : Line) (s : State) : Host.Outcome State Fault Refusal :=
  .next (if s.rct.state = .loading then s else countLineError l s)

/-- DRIVE_TRANSMITTER_FREE: the frame that was leaving has left, and the next waiting frame leaves (R157). -/
def execDriveTransmitterFree (s : State) : Host.Outcome State Fault Refusal :=
  .next { s with dli := { s.dli with leaving := s.dli.waiting.head?, waiting := s.dli.waiting.tail } }

end Sys2Proof.Machine
end

