-- ==== Sys2Proof/Machine/TimerCommands.lean ====
section
/-! DEFINITION. The meanings of the timers' expiries. An expiry acts when its timer is due by the time count and the stored
calibration at this moment, and changes nothing otherwise (R13; notes/assumptions/5.md). -/

namespace Sys2Proof.Machine

/-- CONTROL_PERIOD_EXPIRY (R88), in the free order of R88, R127 and R149. -/
def execControlPeriodExpiry (s : State) : Host.Outcome State Fault Refusal :=
  match periodDue s with
  | none => .next s
  | some length => .next (arbitrate (expirePeriod (expiryOrder s) length (nextChoice s)))

/-- REQUEST_TIMEOUT of one slot (R48). -/
def execRequestTimeout (i : SlotNo) (s : State) : Host.Outcome State Fault Refusal :=
  match requestDue s i with
  | none => .next s
  | some k => .next (arbitrate (expireRequest i k s))

/-- BRUSH_TIMEOUT (R162). -/
def execBrushTimeout (s : State) : Host.Outcome State Fault Refusal :=
  match brushDue s with
  | none => .next s
  | some b => .next (arbitrate (expireBrush b s))

/-- LINK_TIMEOUT of a line (R164). -/
def execLinkTimeout (l : Line) (s : State) : Host.Outcome State Fault Refusal :=
  .next (if linkDue s l then arbitrate (loseLine l s) else s)

/-- BACK_OFF_TIME_LIMIT (R128). -/
def execBackOffTimeLimit (s : State) : Host.Outcome State Fault Refusal :=
  .next (if backOffDue s then endBackOff s else s)

/-- LOST_BEACON_EXPIRY (R147). -/
def execLostBeaconExpiry (s : State) : Host.Outcome State Fault Refusal :=
  .next (if beaconDue s then beginSearch s else s)

/-- BUMP_REVERSE_TIME_LIMIT (R149). -/
def execBumpReverseTimeLimit (s : State) : Host.Outcome State Fault Refusal :=
  .next (if bumpReverseDue s then endBumpReverse s else s)

/-- UNDOCK_TIME_LIMIT (R154). -/
def execUndockTimeLimit (s : State) : Host.Outcome State Fault Refusal :=
  .next (if undockDue s then endUndock s else s)

/-- STATUS_INTERVAL (R173). -/
def execStatusInterval (s : State) : Host.Outcome State Fault Refusal :=
  .next (if statusDue s then arbitrate (statusTick s) else s)

end Sys2Proof.Machine
end

