-- ==== Sys2Proof/Machine/Dispatch.lean ====
section
/-! DEFINITION. One arm per command: each calls its meaning. -/

namespace Sys2Proof.Machine

def exec (i : Instr) (s : State) : Host.Outcome State Fault Refusal :=
  match i with
  | .powerOn => Sys2Proof.Machine.execPowerOn s
  | .configReadEnd read => Sys2Proof.Machine.execConfigReadEnd read s
  | .segment vL vR kind limit brush tag => Sys2Proof.Machine.execSegment vL vR kind limit brush tag s
  | .start => Sys2Proof.Machine.execStart s
  | .mode kind factor => Sys2Proof.Machine.execMode kind factor s
  | .tile key generation contents => Sys2Proof.Machine.execTile key generation contents s
  | .tileDrop key => Sys2Proof.Machine.execTileDrop key s
  | .setPose level x y heading => Sys2Proof.Machine.execSetPose level x y heading s
  | .loadResponse entries => Sys2Proof.Machine.execLoadResponse entries s
  | .loadLearn entries => Sys2Proof.Machine.execLoadLearn entries s
  | .loadBraking limits vclear => Sys2Proof.Machine.execLoadBraking limits vclear s
  | .loadCalibration values => Sys2Proof.Machine.execLoadCalibration values s
  | .loadDock level x y heading code => Sys2Proof.Machine.execLoadDock level x y heading code s
  | .statusRequest => Sys2Proof.Machine.execStatusRequest s
  | .eventMask clearMode kinds => Sys2Proof.Machine.execEventMask clearMode kinds s
  | .eventClear kinds => Sys2Proof.Machine.execEventClear kinds s
  | .forceEvent kind => Sys2Proof.Machine.execForceEvent kind s
  | .restart => Sys2Proof.Machine.execRestart s
  | .planBadFrame => Sys2Proof.Machine.execPlanBadFrame s
  | .odometryReply tL tR stallLeft stallRight => Sys2Proof.Machine.execOdometryReply tL tR stallLeft stallRight s
  | .brushStatus state jam => Sys2Proof.Machine.execBrushStatus state jam s
  | .senseFrame frame => Sys2Proof.Machine.execSenseFrame frame s
  | .linkBadFrame line => Sys2Proof.Machine.execLinkBadFrame line s
  | .controlPeriodExpiry => Sys2Proof.Machine.execControlPeriodExpiry s
  | .requestTimeout slot => Sys2Proof.Machine.execRequestTimeout slot s
  | .brushTimeout => Sys2Proof.Machine.execBrushTimeout s
  | .linkTimeout line => Sys2Proof.Machine.execLinkTimeout line s
  | .backOffTimeLimit => Sys2Proof.Machine.execBackOffTimeLimit s
  | .lostBeaconExpiry => Sys2Proof.Machine.execLostBeaconExpiry s
  | .bumpReverseTimeLimit => Sys2Proof.Machine.execBumpReverseTimeLimit s
  | .undockTimeLimit => Sys2Proof.Machine.execUndockTimeLimit s
  | .statusInterval => Sys2Proof.Machine.execStatusInterval s
  | .planTransmitterFree => Sys2Proof.Machine.execPlanTransmitterFree s
  | .driveTransmitterFree => Sys2Proof.Machine.execDriveTransmitterFree s

end Sys2Proof.Machine
end

