-- ==== Sys2Proof/Machine/Receive.lean ====
section
/-! DEFINITION. The receivers of the three lines: bytes from outside become commands that wait (R168, R179). -/

namespace Sys2Proof.Machine

/-- What a receiver has when a frame ends: the bytes after its sync byte, or a length byte of 251..255, which makes the
frame bad at once (R179). -/
inductive Arrival where
  | frame (bytes : List Byte)
  | tooLong
  deriving DecidableEq, Repr

/-- The longest body, in bytes (section 11.1). -/
def maxBody : Nat := 250

/-- The frame that a receiver is in has all its bytes: length, kind, body and CRC (R168). -/
def frameFull (bytes : List Byte) : Bool :=
  match bytes with
  | len :: _ => bytes.length == len.toNat + 4
  | [] => false

/-- One byte taken by a receiver: passed over while hunting unless it is the sync byte, and otherwise a byte of the frame,
sync values included (R168). -/
def Receiver.take (r : Receiver) (b : Byte) : Receiver × Option Arrival :=
  match r with
  | .hunting => (if b = syncByte then .inFrame [] else .hunting, none)
  | .inFrame bytes =>
    if bytes.isEmpty && maxBody < b.toNat then (.hunting, some .tooLong)
    else if frameFull (bytes ++ [b]) then (.hunting, some (.frame (bytes ++ [b])))
    else (.inFrame (bytes ++ [b]), none)

/-- The command that an arrival is, on a line with a judgement of frames and a command for a bad one (R166, R169). -/
def Arrival.command (decode : List Byte → Instr) (bad : Instr) : Arrival → Instr
  | .frame bytes => decode bytes
  | .tooLong => bad

/-- The part takes one byte from the Plan Link; a frame's arrival puts its command at the end of the queue (R168, R169). -/
def State.takePlanByte (s : State) (b : Byte) : State :=
  let r := s.pli.receiver.take b
  { s with
    pli := { s.pli with receiver := r.1 }
    pending := s.pending ++ (r.2.map (Arrival.command decodePlan .planBadFrame)).toList }

/-- The part takes one byte from the Drive Link (R166, R168). -/
def State.takeDriveByte (s : State) (b : Byte) : State :=
  let r := s.dli.receiver.take b
  { s with
    dli := { s.dli with receiver := r.1 }
    pending := s.pending ++ (r.2.map (Arrival.command decodeDrive (.linkBadFrame .drive))).toList }

/-- The part takes one byte from the Sense Port (R166, R168). -/
def State.takeSenseByte (s : State) (b : Byte) : State :=
  let r := s.snp.receiver.take b
  { s with
    snp := { s.snp with receiver := r.1 }
    pending := s.pending ++ (r.2.map (Arrival.command decodeSense (.linkBadFrame .sense))).toList }

end Sys2Proof.Machine
end

