-- ==== Sys2Proof/Machine/Wire.lean ====
section
/-! DEFINITION. The bytes that the part sends: the bodies of its Plan Link and Drive Link frames in their envelopes
(R179 to R182). -/

namespace Sys2Proof.Machine

/-! ## Codes of R182 -/

/-- A flag byte: no 0, yes 1. -/
def yesNo (b : Bool) : Byte := byteOf (bitAt b 0)

/-- The four bytes of an unsigned 32-bit field, the most significant first (R181). -/
def bytes32 (w : BitVec 32) : List Byte :=
  [(w >>> 24).setWidth 8, (w >>> 16).setWidth 8, (w >>> 8).setWidth 8, w.setWidth 8]

/-- The four bytes of a position. -/
def positionBytes (n : Nat) : List Byte := bytes32 (BitVec.ofNat 32 n)

/-- The code of a run state (R182). -/
def runCode : RunState → Nat
  | .loading => 0
  | .idle => 1
  | .run => 2
  | .creep => 3
  | .step => 4
  | .hold => 5
  | .reflex => 6
  | .homing => 7
  | .approach => 8
  | .docked => 9
  | .undocking => 10
  | .lifted => 11
  | .fault => 12

/-- The code of a side (R182). -/
def sideCode : Side → Nat
  | .left => 0
  | .right => 1
  | .both => 2

/-- The code of a wheel (R182). -/
def wheelCode : Wheel → Nat
  | .left => 0
  | .right => 1

/-- The code of a cliff sensor (R182). -/
def sensorCode : CliffSensor → Nat
  | .fl => 0
  | .fr => 1
  | .sl => 2
  | .sr => 3

/-- The code of a marking event kind (R180). -/
def markCode : MarkKind → Nat
  | .cliff => 0
  | .drop => 1
  | .bump => 2
  | .stall => 3
  | .jam => 4

/-- The code of a load answer (R182). -/
def answerCode : Answer → Nat
  | .accepted => 0
  | .clamped => 1
  | .busy => 2

/-- The code of a table selector (R180). -/
def selectorCode : Selector → Nat
  | .response => 0
  | .learn => 1
  | .braking => 2
  | .calibration => 3
  | .dock => 4

/-- The code of a Tile Retry reason (R182). -/
def reasonCode : RetryReason → Nat
  | .marked => 0
  | .stale => 1

/-- The code of a refused frame kind (R182). -/
def refusedCode : RefusedFrame → Nat
  | .tile => 0
  | .tileDrop => 1

/-- The code of a DOCK_FAIL reason (R182). -/
def failureCode : DockFailure → Nat
  | .noBeacon => 0
  | .wrongDock => 1
  | .noId => 2
  | .bumps => 3
  | .held => 4
  | .cliff => 5
  | .reflex => 6
  | .levelHeld => 7

/-- The code of what COMMAND_REFUSED names (R182). -/
def refusedCommandCode : RefusedCommand → Nat
  | .mode k => modeCode k
  | .start => 7
  | .setPose => 8

/-! ## Detail blocks (R182) -/

/-- The side, wheel or sensor of a trigger; 255 for a jam (R182). -/
def hazardSide : Hazard → Nat
  | .cliff x => sensorCode x
  | .drop w => wheelCode w
  | .bump x => sideCode x
  | .stall x => sideCode x
  | .jam => 255

/-- The four field bytes of a trigger's detail: the side, wheel or sensor, then the discarded count, 255 when absent; a
jam has the count alone (R182). -/
def hazardFields (h : Hazard) (discarded : Option Nat) : List Nat :=
  match h with
  | .jam => [discarded.getD 255, 0, 0, 0]
  | other => [hazardSide other, discarded.getD 255, 0, 0]

/-- The four field bytes of a given detail (R182). -/
def detailFields : Detail → List Nat
  | .none => [0, 0, 0, 0]
  | .forced => [0, 0, 0, 0]
  | .configNoAnswer => [0, 0, 0, 0]
  | .configBadFormat => [1, 0, 0, 0]
  | .hazard h d => hazardFields h d
  | .sensor x => [sensorCode x, 0, 0, 0]
  | .discarded n => [n, 0, 0, 0]
  | .brush b => [brushCode b, 0, 0, 0]
  | .cause h => [markCode h.kind, hazardSide h, 0, 0]
  | .key k => [k.level, k.col, k.row, 0]
  | .edgeOdometry => [0, 0, 0, 0]
  | .edgeSetPose => [1, 0, 0, 0]
  | .lifted => [0, 0, 0, 0]
  | .tag none => [0, 0, 0, 0]
  | .tag (some t) => [1, t / 256, t % 256, 0]
  | .mode k => [modeCode k, 0, 0, 0]
  | .refused c => [refusedCommandCode c, 0, 0, 0]
  | .dockCode c => [c, 0, 0, 0]
  | .dockFailure r => [failureCode r, 0, 0, 0]
  | .neverAnswered => [0, 0, 0, 0]
  | .stopped => [1, 0, 0, 0]
  | .mark kind k => [markCode kind, k.level, k.col, k.row]

/-- The form byte of a detail: none 0, forced 1, given 2 (R182). -/
def detailForm : Detail → Nat
  | .none => 0
  | .forced => 1
  | _ => 2

/-- The detail block of five bytes (R182). -/
def detailBlock (d : Detail) : List Byte := (detailForm d :: detailFields d).map byteOf

/-! ## Bodies (R181, R182) -/

/-- The 32-bit field of the event flags: bit n is the flag of kind n (R182). -/
def flagBits (events : List (EventKind × Detail)) : Nat := (events.map (fun e => 2 ^ (eventNumber e.1).val)).sum

/-- The block of one kind in STATUS: its detail when its flag is set, and 0 otherwise (R182). -/
def statusBlock (events : List (EventKind × Detail)) (k : EventKind) : List Byte :=
  match events.find? (fun e => e.1 == k) with
  | some e => detailBlock e.2
  | none => [0, 0, 0, 0, 0]

/-- The STATUS body, 179 bytes (R182). -/
def statusBody (f : StatusFrame) : List Byte :=
  [byteOf (runCode f.run), byteOf f.creep, yesNo f.pose.valid, byteOf f.pose.level]
    ++ positionBytes f.pose.x ++ positionBytes f.pose.y ++ wordBytes f.pose.heading
    ++ [byteOf f.segmentFree, byteOf f.modeFree, byteOf f.reportDepth, yesNo f.currentTag.isSome]
    ++ wordBytes (f.currentTag.getD 0) ++ wordBytes f.completed
    ++ signedBytes f.gate.vc ++ [yesNo f.gate.vlim.isSome] ++ wordBytes (f.gate.vlim.getD 0)
    ++ [byteOf f.gate.kStar, yesNo f.gate.scaled]
    ++ [f.slots.empty, f.slots.pending, f.slots.clean, f.slots.marked, f.slots.sent].map byteOf
    ++ bytes32 (BitVec.ofNat 32 (flagBits f.events)) ++ eventKinds.flatMap (statusBlock f.events)
    ++ wordBytes f.planErrors ++ wordBytes f.driveErrors ++ wordBytes f.senseErrors
    ++ [byteOf f.marksDropped, byteOf f.unsolicited, byteOf (brushCode f.brush),
        byteOf (f.reserved.elim 255 brushCode), yesNo f.contact]

/-- The place bytes of an EVENT body; all 0 when the frame carries no place (R182). -/
def placeBytes (p : Option Place) : List Byte :=
  let q : Place := p.getD { level := 0, x := 0, y := 0, heading := 0 }
  [yesNo p.isSome, byteOf q.level] ++ positionBytes q.x ++ positionBytes q.y ++ wordBytes q.heading

/-- The EVENT body, 22 bytes (R182). -/
def eventBody (f : EventFrame) : List Byte :=
  [kindByte f.kind] ++ detailBlock f.detail ++ bytes32 f.time ++ placeBytes f.place

/-- The three bytes of one mark of a LIST: cell index, class, event kind with stale in bit 7 (R181). -/
def markBytes (r : MarkRecord) : List Byte :=
  [byteOf r.cell.val, byteOf r.cls.val, byteOf (markCode r.kind + bitAt r.stale 7)]

/-- The REPORT body: LIST or IMAGE (R181). -/
def reportBody (f : ReportFrame) : List Byte :=
  keyBytes f.key ++ [byteOf f.baseGeneration] ++
    match f.body with
    | .list marks => [0, byteOf marks.length] ++ marks.flatMap markBytes
    | .image cells => 1 :: packCells cells

/-- The TILE_RETRY body (R182). -/
def retryBody (f : RetryFrame) : List Byte :=
  keyBytes f.key ++ [byteOf (reasonCode f.reason), byteOf (refusedCode f.refused), byteOf f.generation]

/-- The kind and body of a Plan Link frame (R180, R182). -/
def planBody : PlanFrame → Byte × List Byte
  | .status f => (0x81, statusBody f)
  | .event f => (0x82, eventBody f)
  | .request k => (0x83, keyBytes k)
  | .report f => (0x84, reportBody f)
  | .retry f => (0x85, retryBody f)
  | .answer f => (0x86, [byteOf (selectorCode f.selector), byteOf (answerCode f.answer)])

/-- The kind and body of a Drive Link frame: the setpoint frame's pair, the brush frame's command, NULL being 5 (R180). -/
def driveBody : DriveFrame → Byte × List Byte
  | .setpoint vL vR => (0x21, signedBytes vL ++ signedBytes vR)
  | .brush command => (0x22, [byteOf (command.elim 5 brushCode)])

/-- A Plan Link frame as it goes over the line (R179). -/
def PlanFrame.wire (f : PlanFrame) : List Byte := envelope (planBody f).1 (planBody f).2

/-- A Drive Link frame as it goes over the line (R179). -/
def DriveFrame.wire (f : DriveFrame) : List Byte := envelope (driveBody f).1 (driveBody f).2

end Sys2Proof.Machine
end

