-- ==== Sys2Proof/Safety.lean ====
section
/-! DEFINITION. The laws of the part, as predicates on its state: the values and the relations that the manual says always
hold. A state that meets them is one that the part can be in; the claims say that every step keeps them. -/

namespace Sys2Proof.Machine

/-! ## Tables (chapter 1) -/

/-- The dock record lies on a level, with a code 0..15 (R14). -/
def DockRecord.InRange (d : DockRecord) : Prop :=
  d.level ≤ 3 ∧ d.x ≤ 51199 ∧ d.y ≤ 51199 ∧ d.heading ≤ 4095 ∧ d.code ≤ 15

/-- The braking table is non-decreasing from B[1] to B[16], no entry exceeds Vclear, and Vclear is at most 500 (R10). -/
def BrakingTable.InOrder (t : BrakingTable) : Prop :=
  (∀ i j : Fin 16, i ≤ j → t.limits[i] ≤ t.limits[j]) ∧ (∀ i : Fin 16, t.limits[i] ≤ t.vclear) ∧ t.vclear ≤ 500

/-- Record 15 has its fixed values, and every floor cap is at most 500 (R6, R8). -/
def ResponseInRange (t : Vector ResponseRecord 16) : Prop :=
  t[15] = { blocking := true, edge := true, floorCap := 0, brush := .stop, trust := .immediate } ∧
    ∀ c : CellClass, t[c].floorCap ≤ 500

/-- A number lies in a range. -/
def Within (lo hi n : Nat) : Prop := lo ≤ n ∧ n ≤ hi

/-- A sensor offset lies in −250..250 (R11). -/
def OffsetInRange (v : Int) : Prop := -250 ≤ v ∧ v ≤ 250

/-- Every calibration value lies in its range (R11, R12). -/
structure Calibration.InRange (c : Calibration) : Prop where
  tickLength : Within 64 4096 c.tickLength
  trackWidth : Within 150 400 c.trackWidth
  leadDistance : Within 0 250 c.leadDistance
  lookAhead : Within 1 16 c.lookAhead
  vMax : Within 50 500 c.vMax
  vWheel : Within 50 600 c.vWheel
  vSpin : Within 20 300 c.vSpin
  controlPeriod : Within 5 20 c.controlPeriod
  cliffThreshold : Within 1 254 c.cliffThreshold
  confirmDistance : Within 5 100 c.confirmDistance
  confirmTime : Within 50 1000 c.confirmTime
  confirmCreep : Within 10 100 c.confirmCreep
  backOffDistance : Within 10 200 c.backOffDistance
  backOffSpeed : Within 20 200 c.backOffSpeed
  backOffTimeLimit : Within 200 3000 c.backOffTimeLimit
  flForward : OffsetInRange c.flForward
  flLeft : OffsetInRange c.flLeft
  frForward : OffsetInRange c.frForward
  frLeft : OffsetInRange c.frLeft
  slForward : OffsetInRange c.slForward
  slLeft : OffsetInRange c.slLeft
  srForward : OffsetInRange c.srForward
  srLeft : OffsetInRange c.srLeft
  bumperOffset : Within 0 200 c.bumperOffset
  requestTimeout : Within 20 2000 c.requestTimeout
  driveTimeout : Within 20 500 c.driveTimeout
  senseTimeout : Within 20 500 c.senseTimeout
  brushTimeout : Within 50 1000 c.brushTimeout
  approachRadius : Within 300 4000 c.approachRadius
  approachSpeed : Within 20 200 c.approachSpeed
  approachTurnSpeed : Within 20 200 c.approachTurnSpeed
  beaconLostTime : Within 100 2000 c.beaconLostTime
  undockDistance : Within 50 1000 c.undockDistance
  blindLimit : Within 0 300 c.blindLimit
  statusInterval : Within 0 5000 c.statusInterval

/-- The learn table names no class 15 (R9). -/
def LearnTable.InRange (t : LearnTable) : Prop := ∀ k : MarkKind, t.entry k ≠ some 15

/-- The law of the loaded tables: each holds values of its own range, and the braking table is in order
(R6, R9, R10, R12, R14). -/
structure TableLaw (s : State) : Prop where
  response : ResponseInRange s.tbs.response
  learn : s.tbs.learn.InRange
  braking : s.tbs.braking.InOrder
  cal : s.tbs.cal.InRange
  dock : s.tbs.dock.InRange

/-! ## The pose (chapter 2) -/

/-- The pose's level lies in 0..3, its x and y in 0..819 199, its heading in 0..4095 (R19). -/
def Pose.InRange (p : Pose) : Prop := p.level ≤ 3 ∧ p.x ≤ 819199 ∧ p.y ≤ 819199 ∧ p.heading ≤ 4095

/-- The law of the pose, with the dock record that the snap stores (R14, R19). -/
def PoseLaw (s : State) : Prop := s.pot.pose.InRange ∧ s.tbs.dock.InRange

/-! ## Queues (chapters 2, 5 and 6) -/

/-- A segment record's values lie in the ranges they are clamped to (R79). -/
def Segment.InRange (g : Segment) : Prop :=
  (-600 ≤ g.vL ∧ g.vL ≤ 600) ∧ (-600 ≤ g.vR ∧ g.vR ≤ 600) ∧
    (match g.kind with | .dist => Within 1 10000 g.limit | .time => Within 10 10000 g.limit) ∧
    g.brush ≠ some .reverse

/-- The law of the segments: at most 8 in the queue, and every one, the current one too, in range (R79, R80). -/
def SegmentLaw (s : State) : Prop :=
  s.mgt.queue.length ≤ 8 ∧ (∀ g ∈ s.mgt.queue, g.InRange) ∧ (∀ c, s.mgt.current = some c → c.segment.InRange)

/-- The law of the mode commands: at most 3 in the queue, every queued Creep's factor in 2..8, and the creep factor in
1..8 (R108, R113). -/
def ModeLaw (s : State) : Prop :=
  s.rct.modeQueue.length ≤ 3 ∧ (∀ c ∈ s.rct.modeQueue, c.kind = .creep → Within 2 8 c.factor) ∧ Within 1 8 s.rct.creep

/-- The law of the history ring: at most 32 entries (R26). -/
def HistoryLaw (s : State) : Prop := s.pot.history.length ≤ 32

/-! ## The tile window (chapter 3) -/

/-- The law of the keys: no two occupied slots hold one key, and every occupied slot's key carries the pose record's
level (R38). -/
def WindowLaw (s : State) : Prop :=
  (∀ i j : SlotNo, ∀ k, (s.twn.slot i).key? = some k → (s.twn.slot j).key? = some k → i = j) ∧
    ∀ i : SlotNo, ∀ k, (s.twn.slot i).key? = some k → k.level = s.pot.pose.level

/-- The law of the requests: at most 6 slots are PENDING, and the TILE_REQUEST frames that wait are for PENDING slots, no
two for one key (R43, R45). -/
def RequestLaw (s : State) : Prop :=
  s.twn.pendingRequests ≤ 6 ∧ s.pli.requests.Nodup ∧
    ∀ k ∈ s.pli.requests, ∃ i : SlotNo, ∃ at_, s.twn.slot i = .pending k at_

/-- The law of the recency order: each occupied slot appears once, and no EMPTY slot does (R39). -/
def RecencyLaw (s : State) : Prop :=
  s.twn.recency.Nodup ∧ ∀ i : SlotNo, i ∈ s.twn.recency ↔ (s.twn.slot i).key?.isSome

/-! ## Marks and reports (chapter 4) -/

/-- The records of a list with a given sent field. -/
def recordsWith (sent : Bool) (m : Marks) : List MarkRecord := m.records.filter (fun r => r.sent == sent)

/-- A slot's unsent marks number at most 8, with at most one for any cell, and its sent marks number at most 8 (R64). -/
def Marks.InRange (m : Marks) : Prop :=
  (recordsWith false m).length ≤ 8 ∧ ((recordsWith false m).map MarkRecord.cell).Nodup ∧ (recordsWith true m).length ≤ 8

/-- The law of the marks lists: in range, and in a MARKED slot none is sent, and there is one or the overflow flag is set
(R64, R70). -/
def MarksLaw (s : State) : Prop :=
  ∀ i : SlotNo,
    match s.twn.slot i with
    | .marked _ m => m.InRange ∧ recordsWith true m = [] ∧ (m.records ≠ [] ∨ m.overflow)
    | .sent _ m => m.InRange
    | _ => True

/-- The law of the report queue: at most 4 keys, no key twice, and every key's slot MARKED (R68). -/
def ReportLaw (s : State) : Prop :=
  s.mru.reportQueue.length ≤ 4 ∧ s.mru.reportQueue.Nodup ∧
    ∀ k ∈ s.mru.reportQueue, ∃ i : SlotNo, ∃ t m, s.twn.slot i = .marked t m ∧ t.key = k

/-- The law of the marked order: each MARKED slot appears once, and no other slot does (R67). -/
def MarkedOrderLaw (s : State) : Prop :=
  s.mru.markedOrder.Nodup ∧ ∀ i : SlotNo, i ∈ s.mru.markedOrder ↔ (s.twn.slot i).isMarked

/-! ## Phases (chapters 6, 7 and 8) -/

/-- The law of the phases: a reflex phase stands in REFLEX alone and there always; an approach phase in APPROACH alone
and there always; a suspicion only in the states that keep it; the pending-step flag only in STEP (R114, R116, R136,
R143, R156). -/
structure PhaseLaw (s : State) : Prop where
  reflex : s.rfx.phase ≠ .none ↔ s.rct.state = .reflex
  approach : s.dau.phase ≠ .none ↔ s.rct.state = .approach
  suspects : anySuspect s.rfx.suspects → s.rct.state.keepsSuspicion
  pendingStep : s.rct.pendingStep → s.rct.state = .step

/-- The law of the DAU's items: the lost-beacon timer runs in TRACK alone, the reverse measure is kept in BUMP_REVERSE and
UNDOCKING alone, and every count lies in its range (R139, R143). -/
structure DockLaw (s : State) : Prop where
  timer : s.dau.beaconTimer.isSome ↔ s.dau.phase = .track
  reverse : s.dau.reverse.isSome ↔ s.dau.phase = .bumpReverse ∨ s.rct.state = .undocking
  search : s.dau.searchTurn ≤ 4223
  contact : s.dau.contactCount ≤ 5
  wait : s.dau.idWait ≤ 10
  bumps : s.rfx.approachBumps ≤ 3

/-! ## The lines (chapters 9 and 10) -/

/-- The law of the brush record: a pending state is held only while the brush is reserved, and it is never the commanded
state (R161). -/
def BrushLaw (s : State) : Prop :=
  match s.dli.reservation with
  | none => s.dli.pendingBrush = none
  | some r => s.dli.pendingBrush ≠ some r.commanded

/-- The law of the frames that wait: at most one EVENT frame for each kind (R174), and at most one TILE_RETRY for each key
and reason (R73). -/
def WaitingLaw (s : State) : Prop :=
  (s.pli.events.map EventFrame.kind).Nodup ∧ (s.pli.retries.map (fun r => (r.key, r.reason))).Nodup

/-- The law of the counts: each stays at or below the value it saturates at or wraps before (R50, R66, R84, R166, R169). -/
structure CountLaw (s : State) : Prop where
  plan : s.pli.errors ≤ 65535
  drive : s.dli.errors ≤ 65535
  sense : s.snp.errors ≤ 65535
  unsolicited : s.twn.unsolicited ≤ 255
  dropped : s.mru.dropped ≤ 255
  completed : s.mgt.completed ≤ 65535

/-- The law of the Drive Link's transmitter: a frame waits only while another is leaving (R157). -/
def DriveQueueLaw (s : State) : Prop := s.dli.leaving = none → s.dli.waiting = []

/-- The law of LOADING: no control period runs, and no mode command waits (R104, R108). -/
def LoadingLaw (s : State) : Prop := s.rct.state = .loading → s.mgt.period = none ∧ s.rct.modeQueue = []

/-! ## What the claims speak of

The words below say what the rules say in the plainest form that serves for a claim. The machine does not use them. -/

/-- The timers that are due in a state, by the rules of each: the timer runs, and the time since its start has reached its
limit in time count units (R48, R88, R128, R147, R149, R154, R162, R164, R173). -/
def DueAt (s : State) : Instr → Prop
  | .requestTimeout i => ∃ k at_, s.twn.slot i = .pending k at_ ∧
      2 * s.tbs.cal.requestTimeout ≤ (s.pot.timeCount - at_).toNat
  | .controlPeriodExpiry => ∃ p, s.mgt.period = some p ∧ 2 * p.length ≤ (s.pot.timeCount - p.start).toNat
  | .backOffTimeLimit => ∃ h m, s.rfx.phase = .back h m ∧
      2 * s.tbs.cal.backOffTimeLimit ≤ (s.pot.timeCount - m.start).toNat
  | .lostBeaconExpiry => s.dau.phase = .track ∧ ∃ start, s.dau.beaconTimer = some start ∧
      2 * s.tbs.cal.beaconLostTime ≤ (s.pot.timeCount - start).toNat
  | .bumpReverseTimeLimit => s.dau.phase = .bumpReverse ∧ ∃ m, s.dau.reverse = some m ∧
      2 * s.tbs.cal.backOffTimeLimit ≤ (s.pot.timeCount - m.start).toNat
  | .undockTimeLimit => s.rct.state = .undocking ∧ ∃ m, s.dau.reverse = some m ∧
      6 * s.tbs.cal.backOffTimeLimit ≤ (s.pot.timeCount - m.start).toNat
  | .brushTimeout => ∃ r, s.dli.reservation = some r ∧
      2 * s.tbs.cal.brushTimeout ≤ (s.pot.timeCount - r.sentAt).toNat
  | .linkTimeout .drive => ∃ start, (s.dli.watch = .waiting start ∨ s.dli.watch = .up start) ∧
      2 * s.tbs.cal.driveTimeout ≤ (s.pot.timeCount - start).toNat
  | .linkTimeout .sense => ∃ start, (s.snp.watch = .waiting start ∨ s.snp.watch = .up start) ∧
      2 * s.tbs.cal.senseTimeout ≤ (s.pot.timeCount - start).toNat
  | .statusInterval => s.rct.state ≠ .loading ∧ s.tbs.cal.statusInterval ≠ 0 ∧
      2 * s.tbs.cal.statusInterval ≤ (s.pot.timeCount - s.pli.statusStart).toNat
  | _ => False

/-- The commands that are a timer's expiry. -/
def isExpiry : Instr → Bool
  | .controlPeriodExpiry => true
  | .requestTimeout _ => true
  | .brushTimeout => true
  | .linkTimeout _ => true
  | .backOffTimeLimit => true
  | .lostBeaconExpiry => true
  | .bumpReverseTimeLimit => true
  | .undockTimeLimit => true
  | .statusInterval => true
  | _ => false

/-- The commands that are frames of the navigation processor (R170). -/
def isPlanFrame : Instr → Bool
  | .segment _ _ _ _ _ _ => true
  | .start => true
  | .mode _ _ => true
  | .tile _ _ _ => true
  | .tileDrop _ => true
  | .setPose _ _ _ _ => true
  | .loadResponse _ => true
  | .loadLearn _ => true
  | .loadBraking _ _ => true
  | .loadCalibration _ => true
  | .loadDock _ _ _ _ _ => true
  | .statusRequest => true
  | .eventMask _ _ => true
  | .eventClear _ => true
  | .forceEvent _ => true
  | .restart => true
  | _ => false

/-- A key that no tile has: its level above 3, or its tile column or row above 63 (R169). -/
def OffMap (k : TileKey) : Prop := 3 < k.level ∨ 63 < k.col ∨ 63 < k.row

/-- The thirty-five values of a calibration record, in the order of R11. -/
def Calibration.values (c : Calibration) : List Int :=
  [c.tickLength, c.trackWidth, c.leadDistance, c.lookAhead, c.vMax, c.vWheel, c.vSpin, c.controlPeriod,
    c.cliffThreshold, c.confirmDistance, c.confirmTime, c.confirmCreep, c.backOffDistance, c.backOffSpeed,
    c.backOffTimeLimit].map (fun n : Nat => (n : Int)) ++
  [c.flForward, c.flLeft, c.frForward, c.frLeft, c.slForward, c.slLeft, c.srForward, c.srLeft] ++
  [c.bumperOffset, c.requestTimeout, c.driveTimeout, c.senseTimeout, c.brushTimeout, c.approachRadius,
    c.approachSpeed, c.approachTurnSpeed, c.beaconLostTime, c.undockDistance, c.blindLimit,
    c.statusInterval].map (fun n : Nat => (n : Int))

/-- A value held to the nearer end of the numbered range of R11 (R12). -/
def heldToRange (n : Nat) (v : Int) : Int :=
  let r := calibrationRanges.getD n (0, 0)
  max r.1 (min r.2 v)

/-- The value that two bytes of the configuration memory hold, the sensor offsets signed (R15). -/
def memoryField (bytes : List Byte) (n : Nat) : Int :=
  let w : Int := ((bytes.getD (2 * n) 0).toNat * 256 + (bytes.getD (2 * n + 1) 0).toNat : Nat)
  if 15 ≤ n ∧ n ≤ 22 ∧ 32768 ≤ w then w - 65536 else w

/-- The tile that a TILE frame's key, generation and contents make (R50). -/
def ArrivesAs (t : Tile) (key : TileKey) (generation : Nat) (contents : TileContents) : Prop :=
  t.key = key ∧ t.generation = generation ∧
    ∀ n : CellIndex,
      match contents with
      | .full classes => t.cells[n] = classes[n]
      | .uniform c => t.cells[n].val = c

/-- The report queue after an offer of a key (R68). -/
def offered (k : TileKey) (queue : List TileKey) : List TileKey :=
  if queue.length < 4 ∧ k ∉ queue then queue ++ [k] else queue

/-- The waiting TILE_RETRY frames after a refusal: a frame for the same key and reason stands for both (R73). -/
def retried (f : RetryFrame) (waiting : List RetryFrame) : List RetryFrame :=
  if ∃ r ∈ waiting, r.key = f.key ∧ r.reason = f.reason then waiting else waiting ++ [f]

/-- The class that the window holds for a cell of the current level, or none for unknown (R41). -/
def classAt (s : State) (c : Cell) : Option CellClass :=
  match s.twn.find (c.key s.pot.pose.level) with
  | none => none
  | some i => (s.twn.slot i).tile?.map (fun t => t.cells[c.index])

/-- A tile contains a cell within 2 cells of the robot's centre cell (R3, R40). -/
def Near (p : Pose) (k : TileKey) : Prop :=
  k.level = p.level ∧ ∃ col row : Nat,
    (col ≤ p.x / 800 + 2 ∧ p.x / 800 ≤ col + 2) ∧ (row ≤ p.y / 800 + 2 ∧ p.y / 800 ≤ row + 2) ∧
    col / 16 = k.col ∧ row / 16 = k.row

/-- The frames that the Drive Link holds: the one that is leaving and those that wait. -/
def driveFrames (d : DriveLink) : List DriveFrame := d.leaving.toList ++ d.waiting

/-- The frame that is leaving after another comes to be sent (R157). -/
def leavingAfter (f : DriveFrame) : Option DriveFrame → Option DriveFrame
  | none => some f
  | some g => some g

/-- The frames that wait after another comes to be sent while `leaving` stands at the transmitter (R157). -/
def waitingAfter (f : DriveFrame) (leaving : Option DriveFrame) (waiting : List DriveFrame) : List DriveFrame :=
  match leaving with
  | none => waiting
  | some _ => waiting ++ [f]

/-- The heading after a sense frame's yaw increment (R4, R21). -/
def turned (heading : Nat) (yaw : Int) : Nat := (((heading : Int) + yaw) % 4096).toNat

/-- A run state in which the robot stands still: IDLE, HOLD, DOCKED, LIFTED or FAULT (R103). -/
def StillState (r : RunState) : Prop := r = .idle ∨ r = .hold ∨ r = .docked ∨ r = .lifted ∨ r = .fault

/-- RUN, CREEP, STEP or HOMING, the states that run segments (R82). -/
def SegmentState (r : RunState) : Prop := r = .run ∨ r = .creep ∨ r = .step ∨ r = .homing

/-- The state once a good sense frame has turned the heading, restarted the watch, stored the contact and written the armed
flags, in a run state in which inputs fire: an absent signal arms its input, and a present one leaves it disarmed, whether it
was or has just fired (R21, R123, R163). -/
def sensed (f : SenseFrame) (s : State) : State :=
  { s with
    pot := { s.pot with pose := { s.pot.pose with heading := turned s.pot.pose.heading f.yaw } }
    snp := { s.snp with watch := .up s.pot.timeCount, lastContact := f.contact }
    rfx := { s.rfx with
      armed := { s.rfx.armed with
        bumperLeft := !f.bumperLeft
        bumperRight := !f.bumperRight
        dropLeft := !f.dropLeft
        dropRight := !f.dropRight
        cliff :=
          { fl := decide (s.tbs.cal.cliffThreshold ≤ f.cliffFL)
            fr := decide (s.tbs.cal.cliffThreshold ≤ f.cliffFR)
            sl := decide (s.tbs.cal.cliffThreshold ≤ f.cliffSL)
            sr := decide (s.tbs.cal.cliffThreshold ≤ f.cliffSR) } } } }

/-- The inputs of a sense frame that fire, in their order: a single wheel drop, the bumpers, the cliff sensors FL, FR, SL, SR.
An input fires when its signal is present and it is armed (R122, R123, R125). DEDUCED: a bump's side is of the bumpers that
fire (notes/assumptions/13.md). -/
def firing (s : State) (f : SenseFrame) : List Hazard :=
  let left := f.bumperLeft && s.rfx.armed.bumperLeft
  let right := f.bumperRight && s.rfx.armed.bumperRight
  (if f.dropLeft && s.rfx.armed.dropLeft then [.drop .left]
   else if f.dropRight && s.rfx.armed.dropRight then [.drop .right] else []) ++
  (if left && right then [.bump .both] else if left then [.bump .left] else if right then [.bump .right] else []) ++
  ([CliffSensor.fl, .fr, .sl, .sr].filter (fun x =>
    decide (reflectance f x < s.tbs.cal.cliffThreshold) && s.rfx.armed.cliff.get x)).map Hazard.cliff

/-- A suspicion has reached its confirm distance or its confirm time (R135). -/
def Ripe (s : State) (m : Measure) : Prop :=
  2048 * s.tbs.cal.confirmDistance ≤ m.travel ∨ 2 * s.tbs.cal.confirmTime ≤ (s.pot.timeCount - m.start).toNat

/-- Every active suspicion stays active at a frame: its sensor still reads low, and it has not ripened (R135). -/
def KeptSuspicions (s : State) (f : SenseFrame) : Prop :=
  ∀ x m, s.rfx.suspects.get x = some m → reflectance f x < s.tbs.cal.cliffThreshold ∧ ¬Ripe s m

/-- A sense frame that gives the RFX nothing to do but to write the armed flags: the wheels are not both dropped, no input
fires, and every active suspicion stays active (R123, R135, R138). -/
def Settled (s : State) (f : SenseFrame) : Prop :=
  (f.dropLeft && f.dropRight) = false ∧ firing s f = [] ∧ KeptSuspicions s f

/-- The event kind of a trigger (R124). -/
def triggerEvent : Hazard → EventKind
  | .cliff _ => .cliff
  | .drop _ => .wheelDrop
  | .bump _ => .bump
  | .stall _ => .stall
  | .jam => .brushJam

/-- The number of segments that a discard would drop (R86). -/
def segmentCount (s : State) : Nat := s.mgt.queue.length + (if s.mgt.current = none then 0 else 1)

/-- A firing that is an event alone: no count, no mark, no motion (R124). -/
def eventAlone (t : State) (h : Hazard) : State := raise (triggerEvent h) (.hazard h none) t

/-- A later input of a frame whose cause discarded `count` segments: its own event with the same count, and its own mark
(R125). -/
def laterInput (age count : Nat) (t : State) (h : Hazard) : State :=
  requestMark h age (raise (triggerEvent h) (.hazard h (some count)) t)

/-- A sensor's suspicion opened once its trust has been judged (R134). -/
def suspicionOpened (t : State) (x : CliffSensor) : State :=
  { (judgeTrust x t).2 with
    rfx := { t.rfx with suspects := t.rfx.suspects.set x (some { travel := 0, start := t.pot.timeCount }) } }

/-- The listed sensors, judged one after another on what those before have left, are all of CONFIRM trust (R125, R133). -/
def AllConfirm (xs : List CliffSensor) (t : State) : Prop :=
  ∀ before x after, xs = before ++ x :: after → (judgeTrust x (before.foldl suspicionOpened t)).1 = true

/-- A sensor's active suspicion discounted when the sensor reads clear: closed, with CLIFF_DISCOUNTED (R135). -/
def suspicionDiscounted (f : SenseFrame) (t : State) (x : CliffSensor) : State :=
  if (t.rfx.suspects.get x).isSome && decide (t.tbs.cal.cliffThreshold ≤ reflectance f x) then
    raise .cliffDiscounted (.sensor x) { t with rfx := { t.rfx with suspects := t.rfx.suspects.set x none } }
  else t

/-- A sensor's active suspicion is confirmed at a frame: the sensor still reads low, and the suspicion has ripened (R135). -/
def SuspicionConfirmed (f : SenseFrame) (t : State) (x : CliffSensor) : Prop :=
  ∃ m, t.rfx.suspects.get x = some m ∧ reflectance f x < t.tbs.cal.cliffThreshold ∧ Ripe t m

/-- The sector of the dock-code observation that a frame carries, if any: CENTRE for the centre receiver or for both sides
(R144). -/
def seenSector (s : State) (f : SenseFrame) : Option Sector :=
  match f.beacon with
  | none => none
  | some b =>
    if b.code ≠ s.tbs.dock.code then none
    else if b.centre || (b.left && b.right) then some .centre
    else if b.left then some .left
    else if b.right then some .right else none

/-- The flag of a kind is set with a detail (R174). -/
def Flagged (s : State) (k : EventKind) (d : Detail) : Prop := (s.evu.record k).flag = true ∧ (s.evu.record k).detail = d

/-- The run states that the legality table of R110 gives for a command taken, none where it is refused; `up` says that both
lines are up. -/
def legalityTable (up : Bool) : RunState → ModeKind → List RunState
  | .idle, .returnHome => [.homing]
  | .idle, .stop => [.idle]
  | .run, .hold => [.hold]
  | .run, .creep => [.creep]
  | .run, .step => [.step, .hold]
  | .run, .returnHome => [.homing]
  | .run, .stop => [.idle]
  | .creep, .hold => [.hold]
  | .creep, .resume => [.run]
  | .creep, .creep => [.creep]
  | .creep, .step => [.step, .hold]
  | .creep, .returnHome => [.homing]
  | .creep, .stop => [.idle]
  | .step, .hold => [.hold]
  | .step, .resume => [.run]
  | .step, .creep => [.creep]
  | .step, .stop => [.idle]
  | .hold, .resume => [.run]
  | .hold, .creep => [.creep]
  | .hold, .step => [.step, .hold]
  | .hold, .returnHome => [.homing]
  | .hold, .stop => [.idle]
  | .reflex, .stop => [.idle]
  | .homing, .hold => [.hold]
  | .homing, .stop => [.idle]
  | .approach, .hold => [.hold]
  | .approach, .stop => [.idle]
  | .docked, .undock => [.undocking]
  | .docked, .stop => [.idle]
  | .undocking, .hold => [.hold]
  | .undocking, .stop => [.idle]
  | .fault, .stop => if up then [.idle] else []
  | _, _ => []

end Sys2Proof.Machine
end

