-- ==== Sys2Proof/Certificates/Slice0/Obligations.lean ====
section
/-! DEFINITION. The statements for the provers. Each says what the manual says a command, a block or the whole part does; the
docstring names the rules. -/

open Sys2Proof Sys2Proof.Machine

/-! ## The queue and the clock -/

/-- A step takes the command at the front of the queue and runs it on the state with the queue's rest: the table's steps are
each whole and indivisible (spec/95_what_each_step_holds.md). -/
def Obligations.StepTakesTheFrontCommand : Prop :=
  ∀ (c : Instr) (rest : List Instr) (s : State), s.pending = c :: rest → step s = exec c { s with pending := rest }

/-- A step on an empty queue is one advance of the time count, and the commands of exactly the timers that are due at the new
count wait after it, each once, in some order. R20 gives the advance and the timers' rules their judging at each advance;
that the tick is the step on an empty queue, and the order, are the model's choices (notes/assumptions/1.md, 2.md). -/
def Obligations.IdleStepAdvancesTheTimeCount : Prop :=
  ∀ s : State, s.pending = [] →
    ∃ t, step s = .next t ∧
      t = { s with pot := { s.pot with timeCount := s.pot.timeCount + 1 }, choices := s.choices + 1, pending := t.pending } ∧
      t.pending.Nodup ∧ ∀ c, c ∈ t.pending ↔ DueAt t c

/-- Every command has a next state in every state, and none touches the commands that wait behind it. The manual gives each
command its effect; five of the clauses are the model's: the queue is the model's own (notes/assumptions/4.md), POWER_ON is
taken in any state and keeps the waiting commands (10.md, unsafe), an expiry command that is not due (5.md) and a
CONFIG_READ_END outside LOADING (11.md) change nothing, and a command with operands that no good frame carries is a bad frame
(7.md). -/
def Obligations.EveryCommandCompletesAndKeepsTheQueue : Prop :=
  ∀ (c : Instr) (s : State), ∃ t, exec c s = .next t ∧ t.pending = s.pending

/-! ## Resets and LOADING -/

/-- Power-on sets every block to its power-on values, in any state (R6, R9, R10, R14, R17, R19, R20, R58, R77, R101, R104,
R141, R143, R167, R177). The commands that wait and the counter of free choices, which are the model's own, are kept
(notes/assumptions/4.md, 10.md). R167 gives the brush record from the end of LOADING, which keeps it as it stands here; that it is
STOP and unreserved already during LOADING is the model's choice (notes/assumptions/8.md). -/
def Obligations.PowerOnSetsEveryBlock : Prop :=
  ∀ s : State, ∃ t, exec .powerOn s = .next t ∧
    t.rct = { state := .loading, modeQueue := [], creep := 1, pendingStep := false } ∧
    t.pot = { pose := { valid := false, level := 0, x := 0, y := 0, heading := 0 }, history := [], timeCount := 0 } ∧
    (∀ i, t.twn.slot i = .empty) ∧ t.twn.recency = [] ∧ t.twn.unsolicited = 0 ∧
    t.mru = { reportQueue := [], markedOrder := [], dropped := 0 } ∧
    t.mgt = { queue := [], current := none, completed := 0, starved := false, period := none,
              result := { vc := 0, vlim := none, kStar := 0, scaled := false } } ∧
    t.rfx = { phase := .none, suspects := { fl := none, fr := none, sl := none, sr := none }, approachBumps := 0,
              armed := { bumperLeft := true, bumperRight := true, dropLeft := true, dropRight := true,
                         cliff := { fl := true, fr := true, sl := true, sr := true },
                         stallLeft := true, stallRight := true, jam := true } } ∧
    t.dau = { phase := .none, lastSector := none, beaconTimer := none, searchTurn := 0, contactCount := 0, idWait := 0,
              reverse := none } ∧
    (t.dli.brushState = .stop ∧ t.dli.reservation = none ∧ t.dli.pendingBrush = none ∧ t.dli.lastWish = .stop ∧ t.dli.errors = 0 ∧
      t.dli.leaving = none ∧ t.dli.waiting = []) ∧
    (t.snp.lastContact = false ∧ t.snp.errors = 0) ∧
    (∀ k, t.evu.record k = { flag := false, detail := .none, masked := false }) ∧ t.evu.clearMode = .explicit ∧
    (t.pli.errors = 0 ∧ t.pli.receiver = .hunting ∧ t.pli.leaving = none ∧ t.pli.events = [] ∧ t.pli.retries = [] ∧
      t.pli.answers = [] ∧ t.pli.requests = [] ∧ t.pli.statusWaits = false) ∧
    t.tbs.response.toList =
      [⟨false, false, 300, .run, .immediate⟩, ⟨false, false, 200, .run, .immediate⟩,
       ⟨false, false, 150, .low, .immediate⟩, ⟨false, false, 120, .lift, .immediate⟩,
       ⟨false, false, 100, .lift, .immediate⟩, ⟨false, false, 120, .run, .immediate⟩,
       ⟨false, false, 80, .stop, .immediate⟩, ⟨false, false, 100, .run, .immediate⟩,
       ⟨true, false, 0, .stop, .immediate⟩, ⟨true, true, 0, .stop, .immediate⟩, ⟨true, true, 0, .stop, .immediate⟩,
       ⟨true, false, 0, .stop, .immediate⟩, ⟨true, false, 0, .stop, .immediate⟩, ⟨true, true, 0, .stop, .immediate⟩,
       ⟨false, false, 100, .lift, .immediate⟩, ⟨true, true, 0, .stop, .immediate⟩] ∧
    t.tbs.learn = { cliff := some 13, drop := some 13, bump := some 12, stall := some 12, jam := some 14 } ∧
    t.tbs.braking.limits.toList = [0, 0, 40, 80, 120, 160, 200, 240, 280, 300, 300, 300, 300, 300, 300, 300] ∧
    t.tbs.braking.vclear = 300 ∧
    t.tbs.dock = { level := 0, x := 0, y := 0, heading := 0, code := 0 } ∧
    t.choices = s.choices ∧ t.pending = s.pending

/-- A RESTART taken in any run state but LOADING sets every block to its Restart values, keeps what the chapters keep, clears
every flag, withdraws the EVENT, TILE_RETRY and TILE_REQUEST frames, and then sets RESTARTED (R17, R19, R26, R45, R58, R73,
R77, R101, R120, R141, R143, R164, R167, R177). That the cleared flags' details stay as they are stored is the model's reading
(notes/assumptions/19.md, unsafe), and so is that the pose is invalid before RESTARTED is set, whose frame carries no pose
(34.md, unsafe). That the last setpoints, the receivers and the Drive Link's waiting frames stand as they stood is the model's
choice (35.md, unsafe). -/
def Obligations.RestartSetsEveryBlock : Prop :=
  ∀ s : State, s.rct.state ≠ .loading → ∃ u, exec .restart s = .next (arbitrate u) ∧
    u.tbs = s.tbs ∧
    u.pot = { pose := { valid := false, level := 0, x := 0, y := 0, heading := 0 }, history := [],
              timeCount := s.pot.timeCount } ∧
    (∀ i, u.twn.slot i = .empty) ∧ u.twn.recency = [] ∧ u.twn.unsolicited = 0 ∧
    u.mru = { reportQueue := [], markedOrder := [], dropped := 0 } ∧
    u.mgt = { queue := [], current := none, completed := 0, starved := false, period := s.mgt.period,
              result := { vc := 0, vlim := none, kStar := 0, scaled := false } } ∧
    u.rct = { state := .idle, modeQueue := [], creep := 1, pendingStep := false } ∧
    u.rfx = { phase := .none, suspects := { fl := none, fr := none, sl := none, sr := none }, approachBumps := 0,
              armed := s.rfx.armed } ∧
    u.dau = { phase := .none, lastSector := none, beaconTimer := none, searchTurn := 0, contactCount := 0, idWait := 0,
              reverse := none } ∧
    u.dli = { s.dli with
      watch := if s.dli.watch = .lost then .waiting s.pot.timeCount else s.dli.watch
      errors := 0 } ∧
    u.snp = { s.snp with
      watch := if s.snp.watch = .lost then .waiting s.pot.timeCount else s.snp.watch
      errors := 0 } ∧
    (∀ k, u.evu.record k =
      { flag := decide (k = .restarted)
        detail := if k = .restarted then .none else (s.evu.record k).detail
        masked := (s.evu.record k).masked }) ∧
    u.evu.clearMode = s.evu.clearMode ∧
    u.pli = { s.pli with
      errors := 0
      retries := []
      requests := []
      events := if (s.evu.record .restarted).masked then []
                else [{ kind := .restarted, detail := .none, time := s.pot.timeCount, place := none }] } ∧
    u.choices = s.choices ∧ u.pending = s.pending

/-- The end of the power-on read ends LOADING by each of its three outcomes: the calibration is stored, the state is IDLE, the
first control period, both watches and the status timer begin, POWER_ON is set, and CONFIG_DEFAULTED after it when the
defaults were stored (R15, R18, R88, R104, R164, R173, R177). -/
def Obligations.PowerOnReadEndsLoading : Prop :=
  ∀ (read : ConfigRead) (s : State), s.rct.state = .loading → ∃ u, exec (.configReadEnd read) s = .next (arbitrate u) ∧
    u.rct.state = .idle ∧
    u.mgt = { s.mgt with period := some { start := s.pot.timeCount, length := u.tbs.cal.controlPeriod } } ∧
    u.dli = { s.dli with watch := .waiting s.pot.timeCount } ∧
    u.snp = { s.snp with watch := .waiting s.pot.timeCount } ∧
    u.pli.statusStart = s.pot.timeCount ∧ u.pli.errors = s.pli.errors ∧
    u.tbs = { s.tbs with cal := u.tbs.cal } ∧ u.pot = s.pot ∧ u.twn = s.twn ∧ u.mru = s.mru ∧
    (∀ values, read = .answered 0xC2 values →
      (∀ n : Fin 35, u.tbs.cal.values.getD n 0 = heldToRange n (memoryField values.toList n)) ∧
        u.evu.record .configDefaulted = s.evu.record .configDefaulted) ∧
    (read = .unanswered →
      u.tbs.cal.values = [512, 236, 170, 8, 350, 450, 150, 10, 40, 20, 300, 40, 50, 100, 1000, 150, 90, 150, -90, 60, 150,
        60, -150, 80, 250, 50, 50, 200, 1500, 80, 60, 500, 300, 100, 0] ∧
        Flagged u .configDefaulted .configNoAnswer) ∧
    (∀ format values, read = .answered format values → format ≠ 0xC2 →
      u.tbs.cal.values = [512, 236, 170, 8, 350, 450, 150, 10, 40, 20, 300, 40, 50, 100, 1000, 150, 90, 150, -90, 60, 150,
        60, -150, 80, 250, 50, 50, 200, 1500, 80, 60, 500, 300, 100, 0] ∧
        Flagged u .configDefaulted .configBadFormat) ∧
    Flagged u .powerOn .none ∧
    ((∀ k, s.evu.record k = { flag := false, detail := .none, masked := false }) → s.pli.events = [] →
      u.pli.events.map EventFrame.kind =
        match read with
        | .unanswered => [.powerOn, .configDefaulted]
        | .answered format _ => if format = 0xC2 then [.powerOn] else [.powerOn, .configDefaulted])

/-- A frame of the navigation processor in LOADING, a TILE or TILE_DROP whose key is off the map or whose UNIFORM class is above
15, and a Plan Link frame that is bad by its bytes are discarded whole and counted, the count saturating at 65 535. A frame of the
Drive Link or the Sense Port in LOADING is discarded without a count. After LOADING a bad one is discarded whole and its line's
error count rises by one, saturating: bad by its bytes, an odometry reply with a tick delta outside −2047..2047, or a sense frame
with a beacon code or dock ID above 15 or a dock ID without the dock contact (R50, R55, R166, R169). -/
def Obligations.BadFramesAreDiscardedAndCounted : Prop :=
  ((∀ (c : Instr) (s : State), isPlanFrame c = true →
     (s.rct.state = .loading ∨
       (∃ key g contents, c = .tile key g contents ∧ (OffMap key ∨ ∃ n, contents = .uniform n ∧ 15 < n)) ∨
       ∃ key, c = .tileDrop key ∧ OffMap key) →
     exec c s = .next { s with pli := { s.pli with errors := min 65535 (s.pli.errors + 1) } }) ∧
   ∀ s : State, exec .planBadFrame s = .next { s with pli := { s.pli with errors := min 65535 (s.pli.errors + 1) } }) ∧
  (∀ s : State, s.rct.state = .loading →
    (∀ tL tR l r, exec (.odometryReply tL tR l r) s = .next s) ∧ (∀ b jam, exec (.brushStatus b jam) s = .next s) ∧
      (∀ f, exec (.senseFrame f) s = .next s) ∧ ∀ l, exec (.linkBadFrame l) s = .next s) ∧
  ∀ s : State, s.rct.state ≠ .loading →
    (exec (.linkBadFrame .drive) s = .next { s with dli := { s.dli with errors := min 65535 (s.dli.errors + 1) } } ∧
      exec (.linkBadFrame .sense) s = .next { s with snp := { s.snp with errors := min 65535 (s.snp.errors + 1) } }) ∧
    (∀ tL tR l r, (tL < -2047 ∨ 2047 < tL ∨ tR < -2047 ∨ 2047 < tR) →
      exec (.odometryReply tL tR l r) s = .next { s with dli := { s.dli with errors := min 65535 (s.dli.errors + 1) } }) ∧
    ∀ f : SenseFrame,
      ((∃ b, f.beacon = some b ∧ 15 < b.code) ∨ (∃ id, f.dockId = some id ∧ 15 < id) ∨
        (f.dockId.isSome ∧ f.contact = false)) →
      exec (.senseFrame f) s = .next { s with snp := { s.snp with errors := min 65535 (s.snp.errors + 1) } }

/-! ## Segments, Start and the mode queue -/

/-- A SEGMENT taken becomes one segment record, its speeds held to −600..600, a distance limit to 1..10 000 mm and a time
limit to 10..10 000 ms, an unknown brush override stored as STOP; it joins the queue behind at most seven others, and is lost
with SEGMENT_OVERFLOW when eight wait (R79, R80). -/
def Obligations.SegmentIsClampedAndQueued : Prop :=
  ∀ (vL vR : Int) (kind : LimitKind) (limit : Nat) (brush tag : Option Nat) (s : State), s.rct.state ≠ .loading →
    (Instr.segment vL vR kind limit brush tag).wellFormed = true →
    ∃ g : Segment,
      g.vL = max (-600) (min 600 vL) ∧ g.vR = max (-600) (min 600 vR) ∧ g.kind = kind ∧ g.tag = tag ∧
      (kind = .dist → g.limit = max 1 (min 10000 limit)) ∧ (kind = .time → g.limit = max 10 (min 10000 limit)) ∧
      g.brush = brush.map (fun b => if b = 0 then .run else if b = 1 then .low else if b = 2 then .lift else .stop) ∧
      exec (.segment vL vR kind limit brush tag) s = .next (arbitrate
        (if s.mgt.queue.length < 8 then { s with mgt := { s.mgt with queue := s.mgt.queue ++ [g] } }
         else raise .segmentOverflow (.tag tag) s))

/-- A Start in IDLE with both lines up enters RUN with every hazard input armed; any other Start after LOADING is refused with
COMMAND_REFUSED (Start) and changes nothing else (R105, R106, R123, R164). That a line is up exactly while its watch is UP, as
R164 says, is the model's reading of R106's words (notes/assumptions/24.md, unsafe). -/
def Obligations.StartEntersRunOrIsRefused : Prop :=
  ∀ s : State,
    (s.rct.state = .idle → (∃ t, s.dli.watch = .up t) → (∃ t, s.snp.watch = .up t) →
      exec .start s = .next (arbitrate
        { s with
          rct := { s.rct with state := .run, pendingStep := false }
          rfx := { s.rfx with phase := .none, armed := allArmed } })) ∧
    (s.rct.state ≠ .loading →
      (s.rct.state ≠ .idle ∨ (∀ t, s.dli.watch ≠ .up t) ∨ (∀ t, s.snp.watch ≠ .up t)) →
      exec .start s = .next (arbitrate (raise .commandRefused (.refused .start) s)))

/-- A MODE frame after LOADING joins the mode command queue, a Creep with its factor held to 2..8; with three waiting it is
lost with MODE_LOST (R107, R108). The run state does not change at the arrival. -/
def Obligations.ModeCommandIsQueuedOrLost : Prop :=
  ∀ (kind : ModeKind) (factor : Nat) (s : State), s.rct.state ≠ .loading → factor ≤ 255 →
    ∃ c : ModeCommand, c.kind = kind ∧ c.factor = (if kind = .creep then max 2 (min 8 factor) else 0) ∧
      exec (.mode kind factor) s = .next (arbitrate
        (if s.rct.modeQueue.length < 3 then { s with rct := { s.rct with modeQueue := s.rct.modeQueue ++ [c] } }
         else raise .modeLost (.mode kind) s))

/-! ## Tiles -/

/-- A TILE for another level is discarded and counted. One for a PENDING or CLEAN slot's key replaces the slot's contents, makes
it CLEAN and most-recent, and withdraws a waiting TILE_REQUEST of a PENDING slot. One for a key with no slot goes to the
lowest-numbered EMPTY slot, or is discarded and counted when there is none. One for a MARKED slot's key is refused: the window
stays, a TILE_RETRY (MARKED) waits with the slot's generation, and the key is offered to the report queue. One with a SENT slot's
own generation is refused with a TILE_RETRY (STALE) alone (R39, R45, R50, R51, R52, R53, R68, R73). -/
def Obligations.TileIsStoredDiscardedOrRefused : Prop :=
  (∀ (key : TileKey) (generation : Nat) (contents : TileContents) (t : Tile) (s : State),
     s.rct.state ≠ .loading → ¬OffMap key → generation ≤ 255 → (∀ c, contents = .uniform c → c ≤ 15) → WindowLaw s →
     ArrivesAs t key generation contents →
     (key.level ≠ s.pot.pose.level →
       exec (.tile key generation contents) s = .next (arbitrate
         { s with twn := { s.twn with unsolicited := min 255 (s.twn.unsolicited + 1) } })) ∧
     (∀ i at_, s.twn.slot i = .pending key at_ →
       exec (.tile key generation contents) s = .next (arbitrate
         { s with
           twn := { s.twn with slots := s.twn.slots.set i (.clean t), recency := s.twn.recency.erase i ++ [i] }
           pli := { s.pli with requests := s.pli.requests.filter (fun k => k ≠ key) } })) ∧
     (∀ i held, s.twn.slot i = .clean held → held.key = key →
       exec (.tile key generation contents) s = .next (arbitrate
         { s with
           twn := { s.twn with slots := s.twn.slots.set i (.clean t), recency := s.twn.recency.erase i ++ [i] } })) ∧
     (key.level = s.pot.pose.level → (∀ i, (s.twn.slot i).key? ≠ some key) →
       (∀ i, s.twn.slot i = .empty → (∀ j, j < i → s.twn.slot j ≠ .empty) →
         exec (.tile key generation contents) s = .next (arbitrate
           { s with
             twn := { s.twn with slots := s.twn.slots.set i (.clean t), recency := s.twn.recency.erase i ++ [i] } })) ∧
       ((∀ i, s.twn.slot i ≠ .empty) →
         exec (.tile key generation contents) s = .next (arbitrate
           { s with twn := { s.twn with unsolicited := min 255 (s.twn.unsolicited + 1) } })))) ∧
  ∀ (generation : Nat) (contents : TileContents) (i : SlotNo) (held : Tile) (m : Marks) (s : State),
    s.rct.state ≠ .loading → ¬OffMap held.key → generation ≤ 255 → (∀ c, contents = .uniform c → c ≤ 15) → WindowLaw s →
    (s.twn.slot i = .marked held m →
      exec (.tile held.key generation contents) s = .next (arbitrate
        { s with
          mru := { s.mru with reportQueue := offered held.key s.mru.reportQueue }
          pli := { s.pli with
            retries := retried { key := held.key, reason := .marked, refused := .tile, generation := held.generation }
              s.pli.retries } })) ∧
    (s.twn.slot i = .sent held m → generation = held.generation →
      exec (.tile held.key generation contents) s = .next (arbitrate
        { s with
          pli := { s.pli with
            retries := retried { key := held.key, reason := .stale, refused := .tile, generation := held.generation }
              s.pli.retries } }))

/-- A TILE with a new generation on a SENT slot is the merged tile: the sent records go, and each unsent record is kept and
its class written over the new contents unless the new class of its cell blocks or equals the record's. With a record kept the
slot is MARKED, at the end of the marked order and offered to the report queue, its overflow flag as it was; with none it is
CLEAN. The slot is most-recent either way (R39, R52, R62, R74, R75). -/
def Obligations.MergedTileReappliesUnsentMarks : Prop :=
  ∀ (generation : Nat) (contents : TileContents) (i : SlotNo) (held t : Tile) (m : Marks) (s : State),
    s.rct.state ≠ .loading → ¬OffMap held.key → generation ≤ 255 → (∀ c, contents = .uniform c → c ≤ 15) → WindowLaw s →
    s.twn.slot i = .sent held m → generation ≠ held.generation → ArrivesAs t held.key generation contents →
    ((recordsWith false m).map MarkRecord.cell).Nodup →
    ∃ kept : List MarkRecord,
      kept = m.records.filter (fun r =>
        !r.sent && !s.tbs.response[t.cells[r.cell]].blocking && t.cells[r.cell] != r.cls) ∧
      (kept = [] →
        exec (.tile held.key generation contents) s = .next (arbitrate
          { s with
            twn := { s.twn with slots := s.twn.slots.set i (.clean t), recency := s.twn.recency.erase i ++ [i] } })) ∧
      (kept ≠ [] →
        ∃ merged : Tile, merged.key = held.key ∧ merged.generation = generation ∧
          (∀ r ∈ kept, merged.cells[r.cell] = r.cls) ∧
          (∀ n : CellIndex, (∀ r ∈ kept, r.cell ≠ n) → merged.cells[n] = t.cells[n]) ∧
          exec (.tile held.key generation contents) s = .next (arbitrate
            { s with
              twn := { s.twn with
                slots := s.twn.slots.set i (.marked merged { records := kept, overflow := m.overflow })
                recency := s.twn.recency.erase i ++ [i] }
              mru := { s.mru with
                markedOrder := s.mru.markedOrder ++ [i]
                reportQueue := offered held.key s.mru.reportQueue } }))

/-- A TILE_DROP empties a CLEAN slot, pinned or not, and a SENT slot with its marks; it is refused at a MARKED slot with a
TILE_RETRY (MARKED) and an offer of the key; at a PENDING slot, and for a key that no slot holds, it does nothing. A key off
the map makes it a bad frame, counted (R55). -/
def Obligations.TileDropActsBySlotState : Prop :=
  ∀ (key : TileKey) (s : State), s.rct.state ≠ .loading → ¬OffMap key → WindowLaw s →
    (∀ i, (∃ held, s.twn.slot i = .clean held ∧ held.key = key) ∨ (∃ held m, s.twn.slot i = .sent held m ∧ held.key = key) →
      exec (.tileDrop key) s = .next (arbitrate
        { s with twn := { s.twn with slots := s.twn.slots.set i .empty, recency := s.twn.recency.erase i } })) ∧
    (∀ i held m, s.twn.slot i = .marked held m → held.key = key →
      exec (.tileDrop key) s = .next (arbitrate
        { s with
          mru := { s.mru with reportQueue := offered key s.mru.reportQueue }
          pli := { s.pli with
            retries := retried { key := key, reason := .marked, refused := .tileDrop, generation := held.generation }
              s.pli.retries } })) ∧
    ((∃ i at_, s.twn.slot i = .pending key at_) ∨ (∀ i, (s.twn.slot i).key? ≠ some key) →
      exec (.tileDrop key) s = .next (arbitrate s)) ∧
    ∀ bad, OffMap bad → exec (.tileDrop bad) s = .next { s with pli := { s.pli with errors := min 65535 (s.pli.errors + 1) } }

/-! ## Set-Pose and the table loads -/

/-- A Set-Pose is refused in REFLEX and APPROACH, and across levels while a slot is MARKED or SENT: it raises COMMAND_REFUSED
(Set-Pose) and changes nothing else. Any other Set-Pose after LOADING is accepted: the clamped pose is stored and valid, the
history ring is emptied, a change of level empties the window, and POSE_EDGE is raised when x or y was held (R31, R32). -/
def Obligations.SetPoseIsAcceptedOrRefused : Prop :=
  ∀ (level x y heading : Nat) (s : State), s.rct.state ≠ .loading → level ≤ 255 → x ≤ 65535 → y ≤ 65535 → heading ≤ 65535 →
    let newLevel := min 3 level
    let held := (∃ i t m, s.twn.slot i = .marked t m) ∨ (∃ i t m, s.twn.slot i = .sent t m)
    ((s.rct.state = .reflex ∨ s.rct.state = .approach ∨ (newLevel ≠ s.pot.pose.level ∧ held)) →
      exec (.setPose level x y heading) s = .next (arbitrate (raise .commandRefused (.refused .setPose) s))) ∧
    ((s.rct.state ≠ .reflex ∧ s.rct.state ≠ .approach ∧ (newLevel = s.pot.pose.level ∨ ¬held)) →
      ∃ u : State,
        u = { s with
          pot := { s.pot with
            pose := { valid := true, level := newLevel, x := min 819199 (x * 16), y := min 819199 (y * 16),
                      heading := min 4095 heading }
            history := [] }
          twn := if newLevel = s.pot.pose.level then s.twn
                 else { slots := Vector.replicate 16 .empty, recency := [], unsolicited := s.twn.unsolicited }
          pli := if newLevel = s.pot.pose.level then s.pli else { s.pli with requests := [] } } ∧
        exec (.setPose level x y heading) s = .next (arbitrate
          (if 819199 < x * 16 ∨ 819199 < y * 16 then raise .poseEdge .edgeSetPose u else u)))

/-- A response table load stores, for each record 0..14, the last entry that names it, with its values clamped; a record that
no entry names, and record 15, keep their values. One LOAD_ANSWER waits, CLAMPED when a value was moved or an entry skipped,
ACCEPTED otherwise (R7, R8). That an entry numbered above 15 is skipped like record 15 is the model's reading
(notes/assumptions/21.md). -/
def Obligations.ResponseLoadStoresLastEntries : Prop :=
  ∀ (entries : List ResponseEntry) (s : State), s.rct.state ≠ .loading → (Instr.loadResponse entries).wellFormed = true →
    ∃ (table : Vector ResponseRecord 16) (answer : Answer),
      exec (.loadResponse entries) s = .next (arbitrate
        { s with
          tbs := { s.tbs with response := table }
          pli := { s.pli with answers := s.pli.answers ++ [{ selector := .response, answer := answer }] } }) ∧
      table[15] = s.tbs.response[15] ∧
      (∀ c : CellClass, (∀ e ∈ entries, e.record ≠ c.val) → table[c] = s.tbs.response[c]) ∧
      (∀ before e after, entries = before ++ e :: after → e.record < 15 → (∀ later ∈ after, later.record ≠ e.record) →
        ∀ c : CellClass, c.val = e.record →
          table[c] =
            { blocking := decide (e.blocking ≠ 0)
              edge := decide (e.edge ≠ 0)
              floorCap := min 500 e.floorCap
              brush := if e.brush = 0 then .run else if e.brush = 1 then .low else if e.brush = 2 then .lift else .stop
              trust := if e.trust = 1 then .confirm else .immediate }) ∧
      ((∃ e ∈ entries, 15 ≤ e.record ∨ 500 < e.floorCap ∨ 1 < e.blocking ∨ 1 < e.edge ∨ 3 < e.brush ∨ 1 < e.trust) →
        answer = .clamped) ∧
      ((∀ e ∈ entries, e.record < 15 ∧ e.floorCap ≤ 500 ∧ e.blocking ≤ 1 ∧ e.edge ≤ 1 ∧ e.brush ≤ 3 ∧ e.trust ≤ 1) →
        answer = .accepted)

/-- A learn table load stores, for each marking event kind, the last entry that names it: the class 0..14, or NONE for any
other value. An entry for no such kind is skipped. One LOAD_ANSWER waits, CLAMPED when an entry was skipped or held a value
15..254, ACCEPTED otherwise (R7, R9). -/
def Obligations.LearnLoadStoresLastEntries : Prop :=
  ∀ (entries : List LearnEntry) (s : State), s.rct.state ≠ .loading → (Instr.loadLearn entries).wellFormed = true →
    ∃ (table : LearnTable) (answer : Answer),
      exec (.loadLearn entries) s = .next (arbitrate
        { s with
          tbs := { s.tbs with learn := table }
          pli := { s.pli with answers := s.pli.answers ++ [{ selector := .learn, answer := answer }] } }) ∧
      (∀ k, (∀ e ∈ entries, e.kind ≠ markCode k) → table.entry k = s.tbs.learn.entry k) ∧
      (∀ before e after, entries = before ++ e :: after → (∀ later ∈ after, later.kind ≠ e.kind) →
        ∀ k, markCode k = e.kind → (table.entry k).map Fin.val = if e.cls ≤ 14 then some e.cls else none) ∧
      ((∃ e ∈ entries, 4 < e.kind ∨ Within 15 254 e.cls) → answer = .clamped) ∧
      ((∀ e ∈ entries, e.kind ≤ 4 ∧ (e.cls ≤ 14 ∨ e.cls = 255)) → answer = .accepted)

/-- The law of the braking table. A load pulls Vclear down to 500, B[16] to Vclear and each lower entry to the stored one above
it, and is answered CLAMPED when any value moved; power-on stores the default table; and the stored table is non-decreasing
with no entry above Vclear after reset and after every command, whatever the state (R10). -/
def Obligations.BrakingTableStaysInOrder : Prop :=
  (∀ (limits : List Nat) (vclear : Nat) (s : State), s.rct.state ≠ .loading → limits.length = 16 →
    (∀ b ∈ limits, b ≤ 65535) → vclear ≤ 65535 →
    ∃ (table : BrakingTable) (answer : Answer),
      exec (.loadBraking limits vclear) s = .next (arbitrate
        { s with
          tbs := { s.tbs with braking := table }
          pli := { s.pli with answers := s.pli.answers ++ [{ selector := .braking, answer := answer }] } }) ∧
      table.vclear = min vclear 500 ∧ table.limits[15] = min (limits.getD 15 0) table.vclear ∧
      (∀ k : Fin 15, table.limits[k.castSucc] = min (limits.getD k 0) table.limits[k.succ]) ∧
      ((table.vclear ≠ vclear ∨ ∃ k : Fin 16, table.limits[k] ≠ limits.getD k 0) → answer = .clamped) ∧
      ((table.vclear = vclear ∧ ∀ k : Fin 16, table.limits[k] = limits.getD k 0) → answer = .accepted)) ∧
  (∀ s t : State, exec .powerOn s = .next t →
    t.tbs.braking.vclear = 300 ∧ t.tbs.braking.limits[0] = 0 ∧ t.tbs.braking.limits[1] = 0 ∧
      ∀ k : Fin 16, 2 ≤ k.val → t.tbs.braking.limits[k] = min 300 (40 * (k.val + 1 - 2))) ∧
  State.reset.tbs.braking.InOrder ∧
  ∀ s t : State, s.tbs.braking.InOrder → step s = .next t → t.tbs.braking.InOrder

/-- A calibration load in IDLE stores all thirty-five values, each held to the nearer end of its range, and is answered CLAMPED
when any was moved and ACCEPTED otherwise; the status timer starts anew. In any other state after LOADING nothing is stored and
the answer is BUSY (R11, R12, R173). -/
def Obligations.CalibrationLoadIsWholeOrBusy : Prop :=
  ∀ (values : List Int) (s : State), s.rct.state ≠ .loading → values.length = 35 →
    (∀ v ∈ values, -32768 ≤ v ∧ v ≤ 32767) →
    (s.rct.state = .idle →
      ∃ (c : Calibration) (answer : Answer),
        exec (.loadCalibration values) s = .next (arbitrate
          { s with
            tbs := { s.tbs with cal := c }
            pli := { s.pli with
              statusStart := s.pot.timeCount
              answers := s.pli.answers ++ [{ selector := .calibration, answer := answer }] } }) ∧
        (∀ n : Fin 35, c.values.getD n 0 = heldToRange n (values.getD n 0)) ∧
        ((∃ n : Fin 35, c.values.getD n 0 ≠ values.getD n 0) → answer = .clamped) ∧
        ((∀ n : Fin 35, c.values.getD n 0 = values.getD n 0) → answer = .accepted)) ∧
    (s.rct.state ≠ .idle →
      exec (.loadCalibration values) s = .next (arbitrate
        { s with
          pli := { s.pli with answers := s.pli.answers ++ [{ selector := .calibration, answer := .busy }] } }))

/-- A dock load stores the level held to 3, x and y to 51 199, the heading to 4095 and the code to 15, in any state after
LOADING, and is answered CLAMPED when a value was moved and ACCEPTED otherwise (R7, R14). -/
def Obligations.DockLoadIsClamped : Prop :=
  ∀ (level x y heading code : Nat) (s : State), s.rct.state ≠ .loading →
    level ≤ 65535 → x ≤ 65535 → y ≤ 65535 → heading ≤ 65535 → code ≤ 65535 →
    exec (.loadDock level x y heading code) s = .next (arbitrate
      { s with
        tbs := { s.tbs with
          dock := { level := min 3 level, x := min 51199 x, y := min 51199 y, heading := min 4095 heading,
                    code := min 15 code } }
        pli := { s.pli with
          answers := s.pli.answers ++
            [{ selector := .dock
               answer := if 3 < level ∨ 51199 < x ∨ 51199 < y ∨ 4095 < heading ∨ 15 < code then .clamped
                         else .accepted }] } })

/-! ## Events and STATUS requests -/

/-- An EVENT_MASK stores its clear mode, masks exactly the listed kinds and touches no flag, detail or waiting frame. An
EVENT_CLEAR clears the listed flags, in either clear mode, and touches nothing else. The building of a STATUS frame clears every
flag in ON_STATUS mode and none in EXPLICIT mode; the frame shows the flags as they were (R175). -/
def Obligations.MasksAndClearsActOnFlagsAlone : Prop :=
  (∀ (mode : ClearMode) (kinds : List EventKind) (s : State), s.rct.state ≠ .loading → kinds.length ≤ 249 →
    ∃ e : EventUnit, exec (.eventMask mode kinds) s = .next (arbitrate { s with evu := e }) ∧ e.clearMode = mode ∧
      ∀ k, e.record k = { s.evu.record k with masked := decide (k ∈ kinds) }) ∧
  (∀ (kinds : List EventKind) (s : State), s.rct.state ≠ .loading → kinds.length ≤ 250 →
    ∃ e : EventUnit, exec (.eventClear kinds) s = .next (arbitrate { s with evu := e }) ∧ e.clearMode = s.evu.clearMode ∧
      ∀ k, e.record k = { s.evu.record k with flag := (s.evu.record k).flag && decide (k ∉ kinds) }) ∧
  ∀ s : State, s.pli.events = [] → s.pli.retries = [] → s.pli.answers = [] → s.pli.requests = [] →
    s.mru.reportQueue = [] → s.pli.statusWaits = true →
    ∃ (e : EventUnit) (f : StatusFrame), exec .planTransmitterFree s = .next
        { s with evu := e, pli := { s.pli with statusWaits := false, leaving := some (.status f) } } ∧
      (∀ k d, (k, d) ∈ f.events ↔ Flagged s k d) ∧ e.clearMode = s.evu.clearMode ∧
      ∀ k, e.record k =
        { s.evu.record k with flag := (s.evu.record k).flag && decide (s.evu.clearMode = .explicit) }

/-- A FORCE_EVENT is an occurrence of its kind with the detail "forced" and nothing else: with the flag clear it is set and,
unmasked, an EVENT frame waits, in the place of a frame of its kind that still waits and else at the end, every other waiting
frame as it was; with the flag set the detail alone changes. It is taken for each of the twenty-six kinds, in every state after
LOADING (R174, R176). That a masked occurrence leaves a waiting frame of its kind as it was is the model's reading
(notes/assumptions/19.md, unsafe). -/
def Obligations.ForcedEventChangesFlagAlone : Prop :=
  ∀ (k : EventKind) (s : State), s.rct.state ≠ .loading →
    ∃ u : State, u = raise k .forced s ∧ exec (.forceEvent k) s = .next (arbitrate u) ∧
      u = { s with evu := u.evu, pli := { s.pli with events := u.pli.events } } ∧
      u.evu.clearMode = s.evu.clearMode ∧
      (∀ j, u.evu.record j = if j = k then { s.evu.record k with flag := true, detail := .forced } else s.evu.record j) ∧
      ((s.evu.record k).flag = true ∨ (s.evu.record k).masked = true → u.pli.events = s.pli.events) ∧
      ((s.evu.record k).flag = false → (s.evu.record k).masked = false →
        let f : EventFrame :=
          { kind := k, detail := .forced, time := s.pot.timeCount,
            place := if s.pot.pose.valid then
                       some { level := s.pot.pose.level, x := s.pot.pose.x, y := s.pot.pose.y, heading := s.pot.pose.heading }
                     else none }
        ((∀ w ∈ s.pli.events, w.kind ≠ k) → u.pli.events = s.pli.events ++ [f]) ∧
        ∀ before w after, s.pli.events = before ++ w :: after → w.kind = k → (∀ o ∈ before ++ after, o.kind ≠ k) →
          u.pli.events = before ++ f :: after)

/-- An occurrence of an event kind sets its flag and stores its detail. When the flag was clear and the kind is not masked, an
EVENT frame with the detail, the time count and, when the pose is valid, the pose waits: in the place of a frame of its kind
that still waits, and else at the end. Nothing else changes (R174). That a masked occurrence leaves a waiting frame as it was
is the model's reading (notes/assumptions/19.md). -/
def Obligations.OccurrenceSetsFlagAndQueuesFrame : Prop :=
  ∀ (k : EventKind) (d : Detail) (s : State), (s.pli.events.map EventFrame.kind).Nodup →
    ∃ f : EventFrame,
      f = { kind := k, detail := d, time := s.pot.timeCount,
            place := if s.pot.pose.valid then
                       some { level := s.pot.pose.level, x := s.pot.pose.x, y := s.pot.pose.y, heading := s.pot.pose.heading }
                     else none } ∧
      raise k d s = { s with evu := (raise k d s).evu, pli := { s.pli with events := (raise k d s).pli.events } } ∧
      (raise k d s).evu.clearMode = s.evu.clearMode ∧
      (∀ j, (raise k d s).evu.record j =
        if j = k then { s.evu.record k with flag := true, detail := d } else s.evu.record j) ∧
      ((s.evu.record k).flag = true ∨ (s.evu.record k).masked = true → (raise k d s).pli.events = s.pli.events) ∧
      ((s.evu.record k).flag = false → (s.evu.record k).masked = false →
        ((∀ w ∈ s.pli.events, w.kind ≠ k) → (raise k d s).pli.events = s.pli.events ++ [f]) ∧
        ∀ before w after, s.pli.events = before ++ w :: after → w.kind = k →
          (raise k d s).pli.events = before ++ f :: after)

/-! ## Odometry -/

/-- A good odometry reply moves x and y by the tick sum along the heading, rounded half-up and held to the level, keeps level,
heading and validity, appends one history entry with the pose so moved (the oldest leaves a ring of 32), restarts the Drive
Link's watch, and raises POSE_EDGE (odometry) exactly when an axis was held. This holds in every state after LOADING, whatever
the stall flags and the measures in progress (R22, R23, R25, R26, R159). -/
def Obligations.OdometryMovesPositionAndHistory : Prop :=
  ∀ (tL tR : Int) (stallLeft stallRight : Bool) (s : State), s.rct.state ≠ .loading →
    (-2047 ≤ tL ∧ tL ≤ 2047) → (-2047 ≤ tR ∧ tR ≤ 2047) → HistoryLaw s →
    let x := s.pot.pose.x + ((tL + tR) * s.tbs.cal.tickLength * cosine s.pot.pose.heading + 2 ^ 20) / 2 ^ 21
    let y := s.pot.pose.y + ((tL + tR) * s.tbs.cal.tickLength * sine s.pot.pose.heading + 2 ^ 20) / 2 ^ 21
    let edge := x < 0 ∨ 819199 < x ∨ y < 0 ∨ 819199 < y
    ∃ u : State, exec (.odometryReply tL tR stallLeft stallRight) s = .next (arbitrate u) ∧
      u.pot.pose = { s.pot.pose with x := (max 0 (min 819199 x)).toNat, y := (max 0 (min 819199 y)).toNat } ∧
      u.pot.history = (s.pot.history ++ [HistoryEntry.mk s.pot.timeCount u.pot.pose.x u.pot.pose.y s.pot.pose.heading]).drop
        (s.pot.history.length + 1 - 32) ∧
      u.pot.timeCount = s.pot.timeCount ∧ u.dli.watch = .up s.pot.timeCount ∧
      (edge → Flagged u .poseEdge .edgeOdometry) ∧ (¬edge → u.evu.record .poseEdge = s.evu.record .poseEdge) ∧
      u.tbs = s.tbs ∧ u.snp = s.snp ∧ u.mgt.period = s.mgt.period ∧ u.mgt.result = s.mgt.result ∧
      u.rct.modeQueue = s.rct.modeQueue ∧ u.rct.creep = s.rct.creep

/-- A reply with no stall, while no segment, back-off, suspicion or reverse is measured, moves the position, held to the level,
appends its history entry (the oldest leaves a full ring), restarts the Drive Link's watch, marks the stall inputs as armed, and
raises POSE_EDGE (odometry) when an axis was held. When it moves the centre cell with the pose valid it also asks, in order, for
the neighbour tile in x, in y and diagonally, each when the cell lies within three cells of that edge and the neighbour is on the
level. Nothing else changes (R22, R23, R25, R26, R46, R47, R123, R159). -/
def Obligations.ReplyReadsAheadOnCellChange : Prop :=
  ∀ (tL tR : Int) (s : State), s.rct.state ≠ .loading → (-2047 ≤ tL ∧ tL ≤ 2047) → (-2047 ≤ tR ∧ tR ≤ 2047) →
    s.mgt.current = none → s.rfx.phase = .none → s.rfx.suspects = noSuspects → s.dau.reverse = none →
    let x := s.pot.pose.x + ((tL + tR) * s.tbs.cal.tickLength * cosine s.pot.pose.heading + 2 ^ 20) / 2 ^ 21
    let y := s.pot.pose.y + ((tL + tR) * s.tbs.cal.tickLength * sine s.pot.pose.heading + 2 ^ 20) / 2 ^ 21
    let place : Pose := { s.pot.pose with x := (max 0 (min 819199 x)).toNat, y := (max 0 (min 819199 y)).toNat }
    let entry : HistoryEntry := { stamp := s.pot.timeCount, x := place.x, y := place.y, heading := s.pot.pose.heading }
    let moved : State := { s with
      pot := { s.pot with
        pose := place
        history := (if s.pot.history.length < 32 then s.pot.history else s.pot.history.tail) ++ [entry] }
      dli := { s.dli with watch := .up s.pot.timeCount }
      rfx := { s.rfx with armed := { s.rfx.armed with stallLeft := true, stallRight := true } } }
    let edge := x < 0 ∨ 819199 < x ∨ y < 0 ∨ 819199 < y
    ∃ (told : State) (keys : List TileKey),
      exec (.odometryReply tL tR false false) s = .next (arbitrate (keys.foldl (fun t k => request k t) told)) ∧
      (¬edge → told = moved) ∧ (edge → told = raise .poseEdge .edgeOdometry moved) ∧
      ((s.pot.pose.valid = false ∨ (place.x / 800 = s.pot.pose.x / 800 ∧ place.y / 800 = s.pot.pose.y / 800)) → keys = []) ∧
      ((s.pot.pose.valid = true ∧ (place.x / 800 ≠ s.pot.pose.x / 800 ∨ place.y / 800 ≠ s.pot.pose.y / 800)) →
        let col := place.x / 800
        let row := place.y / 800
        let margin : Nat → List Int := fun n => if n ≤ 2 then [-1] else if 13 ≤ n then [1] else []
        let steps : List (Int × Int) :=
          (margin (col % 16)).map (fun d => (d, 0)) ++ (margin (row % 16)).map (fun d => (0, d)) ++
            (margin (col % 16)).flatMap (fun d => (margin (row % 16)).map (fun e => (d, e)))
        keys =
          (steps.filter (fun d => 0 ≤ ((col / 16 : Nat) : Int) + d.1 ∧ ((col / 16 : Nat) : Int) + d.1 ≤ 63 ∧
              0 ≤ ((row / 16 : Nat) : Int) + d.2 ∧ ((row / 16 : Nat) : Int) + d.2 ≤ 63)).map
            (fun d => { level := s.pot.pose.level, col := (((col / 16 : Nat) : Int) + d.1).toNat,
                        row := (((row / 16 : Nat) : Int) + d.2).toNat }))

/-- The travel figure of a reply, |tL + tR| × Lt, joins the current segment's sum in RUN, CREEP, STEP and HOMING. A DIST
segment whose sum reaches 2048 × its limit completes: the count rises, wrapping after 65 535; STEP becomes HOLD; otherwise the
head of the queue becomes current with both sums at 0, or the robot is starved with SEGMENTS_EMPTY. In any other state the sum
stands (R24, R83, R84). -/
def Obligations.ReplyAdvancesTheSegment : Prop :=
  ∀ (tL tR : Int) (c : CurrentSegment) (s : State), s.rct.state ≠ .loading →
    (-2047 ≤ tL ∧ tL ≤ 2047) → (-2047 ≤ tR ∧ tR ≤ 2047) → PhaseLaw s → DockLaw s → s.mgt.current = some c →
    let travel := c.travel + (tL + tR).natAbs * s.tbs.cal.tickLength
    ∃ u : State, exec (.odometryReply tL tR false false) s = .next (arbitrate u) ∧
      (¬SegmentState s.rct.state → u.mgt = s.mgt) ∧
      (SegmentState s.rct.state →
        (c.segment.kind = .time ∧ c.elapsed < c.segment.limit) ∨
          (c.segment.kind = .dist ∧ travel < 2048 * c.segment.limit) →
        u.mgt = { s.mgt with current := some { c with travel := travel } } ∧ u.rct = s.rct) ∧
      (SegmentState s.rct.state → c.segment.kind = .dist → 2048 * c.segment.limit ≤ travel →
        let count := if s.mgt.completed = 65535 then 0 else s.mgt.completed + 1
        (s.mgt.completed ≤ 65535) →
        (s.rct.state = .step →
          u.rct = { s.rct with state := .hold, pendingStep := false } ∧
            u.mgt = { s.mgt with current := none, completed := count }) ∧
        (s.rct.state ≠ .step → u.rct = s.rct ∧
          (s.mgt.queue = [] →
            u.mgt = { s.mgt with current := none, completed := count, starved := true } ∧
              Flagged u .segmentsEmpty (.tag c.segment.tag)) ∧
          ∀ g rest, s.mgt.queue = g :: rest →
            u.mgt = { s.mgt with
              current := some { segment := g, travel := 0, elapsed := 0 }, queue := rest, completed := count,
              starved := false }))

/-- The same figure joins every other running measure: a back-off ends in HOLD when its sum reaches 2048 × the back-off
distance; an approach bump's reverse ends in TRACK at the same distance, with the lost-beacon timer started; an undock ends in
HOLD at the undock distance; and each active suspicion's sum grows (R24, R128, R134, R149, R154). -/
def Obligations.ReplyAdvancesTheOtherMeasures : Prop :=
  ∀ (tL tR : Int) (s : State), s.rct.state ≠ .loading →
    (-2047 ≤ tL ∧ tL ≤ 2047) → (-2047 ≤ tR ∧ tR ≤ 2047) → PhaseLaw s → DockLaw s →
    let figure := (tL + tR).natAbs * s.tbs.cal.tickLength
    ∃ u : State, exec (.odometryReply tL tR false false) s = .next (arbitrate u) ∧
      (∀ h m, s.rfx.phase = .back h m →
        (2048 * s.tbs.cal.backOffDistance ≤ m.travel + figure → u.rfx.phase = .none ∧ u.rct.state = .hold) ∧
        (m.travel + figure < 2048 * s.tbs.cal.backOffDistance →
          u.rfx.phase = .back h { m with travel := m.travel + figure } ∧ u.rct = s.rct)) ∧
      (∀ m, s.dau.phase = .bumpReverse → s.dau.reverse = some m →
        (2048 * s.tbs.cal.backOffDistance ≤ m.travel + figure →
          u.dau = { s.dau with phase := .track, beaconTimer := some s.pot.timeCount, reverse := none }) ∧
        (m.travel + figure < 2048 * s.tbs.cal.backOffDistance →
          u.dau = { s.dau with reverse := some { m with travel := m.travel + figure } })) ∧
      (∀ m, s.rct.state = .undocking → s.dau.reverse = some m →
        (2048 * s.tbs.cal.undockDistance ≤ m.travel + figure → u.rct.state = .hold ∧ u.dau.reverse = none) ∧
        (m.travel + figure < 2048 * s.tbs.cal.undockDistance →
          u.rct = s.rct ∧ u.dau = { s.dau with reverse := some { m with travel := m.travel + figure } })) ∧
      (u.rct.state = s.rct.state → ∀ x,
        u.rfx.suspects.get x = (s.rfx.suspects.get x).map (fun m => { m with travel := m.travel + figure }))

/-! ## Reflexes -/

/-- What a firing does, by the run state that it finds. IDLE, HOLD and DOCKED: the trigger's event, with no count, and nothing
more. RUN, CREEP, STEP, HOMING, UNDOCKING and APPROACH: the reflex entry, REFLEX in phase HALT with the segments discarded, the
suspicions closed, the DAU idle, one zero setpoint frame, the event with the discarded count, in APPROACH DOCK_FAIL as well,
and the mark's request; a bumper in APPROACH makes no such entry (ApproachBumpsHaltOrFail). REFLEX: the second cause, HOLD with
one zero setpoint frame, the event and REFLEX_ABORTED, and its mark's request. LOADING, LIFTED and FAULT: nothing (R124, R126,
R137, R139). The place of DOCK_FAIL between the event and the mark is the model's choice (notes/assumptions/14.md). -/
def Obligations.FiringActsByRunState : Prop :=
  ∀ (h : Hazard) (age : Nat) (s : State),
    let kind : EventKind := match h with
      | .cliff _ => .cliff | .drop _ => .wheelDrop | .bump _ => .bump | .stall _ => .stall | .jam => .brushJam
    let halted : DriveLink := { s.dli with
      lastSetpoints := (0, 0)
      leaving := leavingAfter (.setpoint 0 0) s.dli.leaving
      waiting := waitingAfter (.setpoint 0 0) s.dli.leaving s.dli.waiting }
    let count := s.mgt.queue.length + (if s.mgt.current = none then 0 else 1)
    let entered : State := { s with
      rct := { s.rct with state := .reflex, pendingStep := false }
      mgt := { s.mgt with queue := [], current := none, starved := false }
      rfx := { s.rfx with phase := .halt h, suspects := noSuspects }
      dau := if s.rct.state = .approach ∨ s.rct.state = .undocking then idleDock else s.dau
      dli := halted }
    let aborted : State := { s with
      rct := { s.rct with state := .hold, pendingStep := false }
      rfx := { s.rfx with phase := .none, suspects := noSuspects }
      dli := halted }
    (s.rct.state = .idle ∨ s.rct.state = .hold ∨ s.rct.state = .docked →
      (fire h age none s).1 = raise kind (.hazard h none) s) ∧
    (SegmentState s.rct.state ∨ s.rct.state = .undocking →
      (fire h age none s).1 = requestMark h age (raise kind (.hazard h (some count)) entered)) ∧
    (s.rct.state = .approach → (∀ side, h ≠ .bump side) →
      (fire h age none s).1 = requestMark h age
        (raise .dockFail (.dockFailure (match h with | .cliff _ => .cliff | _ => .reflex))
          (raise kind (.hazard h (some count)) entered))) ∧
    (s.rct.state = .reflex →
      (fire h age none s).1 = requestMark h age
        (raise .reflexAborted (.cause h) (raise kind (.hazard h none) aborted))) ∧
    (s.rct.state = .loading ∨ s.rct.state = .lifted ∨ s.rct.state = .fault → (fire h age none s).1 = s)

/-- The stall flags of a good reply, judged after the same reply has moved the pose and handed its travel on, whatever it
measured: a segment, a back-off, a suspicion or a reverse. Beside what the same reply does without them, a present flag on an
armed input fires once and disarms it, both in one reply as one STALL with side both; a present flag on a disarmed input does
nothing; and in LIFTED and FAULT a present flag leaves the inputs as they are. The firing finds the run state that the travel
left: HOLD after the reply that ends a back-off, an undock or the segment of STEP, and the successor current after the reply
that completes any other DIST segment. With nothing measured that state is the one the reply found (R24, R84, R123, R125, R128,
R131, R154). That a side is of the inputs that fire is the model's reading (notes/assumptions/13.md). -/
def Obligations.StallFiresWhileArmed : Prop :=
  ∀ (tL tR : Int) (left right : Bool) (s : State), s.rct.state ≠ .loading →
    (-2047 ≤ tL ∧ tL ≤ 2047) → (-2047 ≤ tR ∧ tR ≤ 2047) →
    let figure := (tL + tR).natAbs * s.tbs.cal.tickLength
    ∃ v : State, v.tbs = s.tbs ∧ v.mru = s.mru ∧ v.rfx.armed = s.rfx.armed ∧
      exec (.odometryReply tL tR false false) s = .next (arbitrate
        { v with rfx := { v.rfx with armed := { s.rfx.armed with stallLeft := true, stallRight := true } } }) ∧
      (s.mgt.current = none → s.rfx.phase = .none → s.rfx.suspects = noSuspects → s.dau.reverse = none →
        v.rct = s.rct ∧ v.rfx = s.rfx ∧ v.mgt = s.mgt ∧ v.dau = s.dau) ∧
      (PhaseLaw s → DockLaw s →
        (∀ h m, s.rfx.phase = .back h m → 2048 * s.tbs.cal.backOffDistance ≤ m.travel + figure → v.rct.state = .hold) ∧
        (∀ m, s.rct.state = .undocking → s.dau.reverse = some m →
          2048 * s.tbs.cal.undockDistance ≤ m.travel + figure → v.rct.state = .hold) ∧
        ∀ c, SegmentState s.rct.state → s.mgt.current = some c → c.segment.kind = .dist →
          2048 * c.segment.limit ≤ c.travel + figure →
          (s.rct.state = .step → v.rct.state = .hold ∧ v.mgt.current = none ∧ v.mgt.queue = s.mgt.queue) ∧
          (s.rct.state ≠ .step → v.rct = s.rct ∧ (s.mgt.queue = [] → v.mgt.current = none ∧ v.mgt.queue = []) ∧
            ∀ g rest, s.mgt.queue = g :: rest →
              v.mgt.current = some { segment := g, travel := 0, elapsed := 0 } ∧ v.mgt.queue = rest)) ∧
      (v.rct.state = .lifted ∨ v.rct.state = .fault →
        exec (.odometryReply tL tR left right) s = .next (arbitrate
          { v with rfx := { v.rfx with
              armed := { s.rfx.armed with
                stallLeft := s.rfx.armed.stallLeft || !left, stallRight := s.rfx.armed.stallRight || !right } } })) ∧
      (v.rct.state ≠ .lifted → v.rct.state ≠ .fault →
        let w : State := { v with rfx := { v.rfx with
          armed := { s.rfx.armed with stallLeft := !left, stallRight := !right } } }
        let firesLeft := left = true ∧ s.rfx.armed.stallLeft = true
        let firesRight := right = true ∧ s.rfx.armed.stallRight = true
        (firesLeft → firesRight →
          exec (.odometryReply tL tR left right) s = .next (arbitrate (fire (.stall .both) 0 none w).1)) ∧
        (firesLeft → ¬firesRight →
          exec (.odometryReply tL tR left right) s = .next (arbitrate (fire (.stall .left) 0 none w).1)) ∧
        (¬firesLeft → firesRight →
          exec (.odometryReply tL tR left right) s = .next (arbitrate (fire (.stall .right) 0 none w).1)) ∧
        (¬firesLeft → ¬firesRight → exec (.odometryReply tL tR left right) s = .next (arbitrate w)))

/-- A good brush status stores the state; when it shows the commanded state the reservation is released, and a pending state is
sent at once and reserved for. Then the jam flag: an absent one arms the input, and a present one on the armed input fires, but
not in LIFTED or FAULT (R123, R132, R160, R161). -/
def Obligations.BrushStatusConfirmsAndJamFires : Prop :=
  ∀ (b : BrushState) (jam : Bool) (s : State), s.rct.state ≠ .loading →
    ∃ v : State, v = { s with dli := v.dli } ∧
      ((s.dli.reservation = none ∨ ∃ r, s.dli.reservation = some r ∧ b ≠ r.commanded) →
        v.dli = { s.dli with brushState := b }) ∧
      (∀ r, s.dli.reservation = some r → b = r.commanded →
        (s.dli.pendingBrush = none → v.dli = { s.dli with brushState := b, reservation := none }) ∧
        ∀ p, s.dli.pendingBrush = some p →
          v.dli = { s.dli with
            brushState := b
            reservation := some { commanded := p, sentAt := s.pot.timeCount }
            pendingBrush := none
            leaving := leavingAfter (.brush (some p)) s.dli.leaving
            waiting := waitingAfter (.brush (some p)) s.dli.leaving s.dli.waiting }) ∧
      (jam = false →
        exec (.brushStatus b jam) s = .next (arbitrate
          { v with rfx := { s.rfx with armed := { s.rfx.armed with jam := true } } })) ∧
      (jam = true → (s.rfx.armed.jam = false ∨ s.rct.state = .lifted ∨ s.rct.state = .fault) →
        exec (.brushStatus b jam) s = .next (arbitrate v)) ∧
      (jam = true → s.rfx.armed.jam = true → s.rct.state ≠ .lifted → s.rct.state ≠ .fault →
        exec (.brushStatus b jam) s = .next (arbitrate
          (fire .jam 0 none { v with rfx := { s.rfx with armed := { s.rfx.armed with jam := false } } }).1))

/-- A sense frame on which the wheels are not both dropped: it turns the heading by the yaw increment modulo 4096, restarts the
Sense Port's watch, stores the dock contact and writes every sense input's armed flag. When no input fires and no suspicion
ends, nothing else changes but what the DAU does in HOMING, APPROACH and DOCKED. The inputs that fire are taken in their order,
a single wheel drop, the bumpers, the cliff sensors. In IDLE, HOLD and DOCKED each raises its event alone, and in DOCKED the
DAU then takes the frame. In REFLEX the first is the second cause and the later ones raise their events alone. In the states
that run segments, in UNDOCKING, and in APPROACH, the first is the cause of a reflex entry when it is a drop, a bumper outside
APPROACH, or a cliff in APPROACH; each later one, a low cliff sensor too, raises its event with the same discarded count and
asks for its mark, and no suspicion is judged further. In FAULT, for every frame, absent signals arm, present ones leave their
inputs, and nothing fires (R21, R122 to R126, R129, R130, R135, R137, R139, R163). That a bump's side is of the bumpers that
fire, and that a bumper beside a drop's entry in APPROACH is a later input, are the model's readings (notes/assumptions/13.md,
15.md). ApproachBumpsHaltOrFail says what a bumper that fires first in APPROACH does, CliffFiresByTrust what a cliff sensor
that fires first elsewhere does. -/
def Obligations.BumpersAndDropsFireWhileArmed : Prop :=
  ∀ (f : SenseFrame) (s : State), f.wellFormed = true →
    let v := sensed f s
    let later := laterInput f.age (segmentCount s)
    (Settled s f → s.rct.state ≠ .loading → s.rct.state ≠ .lifted → s.rct.state ≠ .homing → s.rct.state ≠ .approach →
      s.rct.state ≠ .docked → exec (.senseFrame f) s = .next (arbitrate v)) ∧
    ((f.dropLeft && f.dropRight) = false → KeptSuspicions s f →
      (s.rct.state = .idle ∨ s.rct.state = .hold →
        exec (.senseFrame f) s = .next (arbitrate ((firing s f).foldl eventAlone v))) ∧
      (s.rct.state = .docked →
        exec (.senseFrame f) s = .next (arbitrate (dockFrame f ((firing s f).foldl eventAlone v))))) ∧
    (∀ h rest, (f.dropLeft && f.dropRight) = false → firing s f = h :: rest →
      (s.rct.state = .reflex →
        exec (.senseFrame f) s = .next (arbitrate (rest.foldl eventAlone (fire h f.age none v).1))) ∧
      (SegmentState s.rct.state ∨ s.rct.state = .undocking → (∀ x, h ≠ .cliff x) →
        exec (.senseFrame f) s = .next (arbitrate (rest.foldl later (fire h f.age none v).1))) ∧
      (s.rct.state = .approach → (∀ side, h ≠ .bump side) →
        exec (.senseFrame f) s = .next (arbitrate (rest.foldl later (fire h f.age none v).1)))) ∧
    (s.rct.state = .fault →
      exec (.senseFrame f) s = .next (arbitrate
        { v with rfx := { v.rfx with
          armed := { s.rfx.armed with
            bumperLeft := s.rfx.armed.bumperLeft || !f.bumperLeft
            bumperRight := s.rfx.armed.bumperRight || !f.bumperRight
            dropLeft := s.rfx.armed.dropLeft || !f.dropLeft
            dropRight := s.rfx.armed.dropRight || !f.dropRight
            cliff :=
              { fl := s.rfx.armed.cliff.fl || decide (s.tbs.cal.cliffThreshold ≤ f.cliffFL)
                fr := s.rfx.armed.cliff.fr || decide (s.tbs.cal.cliffThreshold ≤ f.cliffFR)
                sl := s.rfx.armed.cliff.sl || decide (s.tbs.cal.cliffThreshold ≤ f.cliffSL)
                sr := s.rfx.armed.cliff.sr || decide (s.tbs.cal.cliffThreshold ≤ f.cliffSR) } } } }))

/-- The judgement of a cliff sensor's trust, and the frames on which cliff sensors alone fire. With the pose invalid trust is
IMMEDIATE, with no lookup. Else the sensor's own cell is looked up: unknown, or of a class of IMMEDIATE trust, trust is
IMMEDIATE after that one lookup. Of CONFIRM trust, the other 24 cells within two cells are looked up by row and then by column,
a cell off the level answering without a lookup, up to the first that is unknown, off the level or edge, which makes it
IMMEDIATE. When all 24 are known and not edge, trust is IMMEDIATE on an edge class of the own cell and CONFIRM otherwise, and
the recency order alone has changed. In a state that runs segments or in UNDOCKING the low sensors are judged in their order:
each of CONFIRM trust opens its suspicion, the first of IMMEDIATE trust is the cause of a reflex entry, and the ones after it
are later inputs. In APPROACH and REFLEX the first fires with no lookup and no judgement, and in IDLE, HOLD and DOCKED each
raises its event alone (R41, R42, R122, R124, R125, R133, R134, R137, R139). That an edge class of the own cell stops none of
the 24 lookups is the model's reading (notes/assumptions/16.md); ScanFindsTheFirstStop says what a lookup leaves. -/
def Obligations.CliffFiresByTrust : Prop :=
  (∀ (x : CliffSensor) (t : State), TableLaw t →
    let o := sensorOffset t.tbs.cal x
    let cell := offsetCell t.pot.pose.base o.1 o.2
    let near (d : Int × Int) : Option Cell := cellAt (cell.col + d.1) (cell.row + d.2)
    let safe (d : Int × Int) : Prop :=
      ∃ c cls, near d = some c ∧ classAt t c = some cls ∧ t.tbs.response[cls].edge = false
    let others : List (Int × Int) :=
      [(-2, -2), (-1, -2), (0, -2), (1, -2), (2, -2), (-2, -1), (-1, -1), (0, -1), (1, -1), (2, -1), (-2, 0), (-1, 0),
       (1, 0), (2, 0), (-2, 1), (-1, 1), (0, 1), (1, 1), (2, 1), (-2, 2), (-1, 2), (0, 2), (1, 2), (2, 2)]
    let looked (ds : List (Int × Int)) : State := ds.foldl
      (fun u d => match near d with | none => u | some c => (lookup c u).2) (lookup cell t).2
    (t.pot.pose.valid = false → judgeTrust x t = (false, t)) ∧
    (t.pot.pose.valid = true →
      (classAt t cell = none → judgeTrust x t = (false, looked [])) ∧
      ∀ cls, classAt t cell = some cls →
        (t.tbs.response[cls].trust = .immediate → judgeTrust x t = (false, looked [])) ∧
        (t.tbs.response[cls].trust = .confirm →
          (∀ before d after, others = before ++ d :: after → (∀ b ∈ before, safe b) → ¬safe d →
            judgeTrust x t = (false, looked (before ++ [d]))) ∧
          ((∀ d ∈ others, safe d) →
            judgeTrust x t = (!t.tbs.response[cls].edge, looked others) ∧
            ∃ recency : List SlotNo, looked others = { t with twn := { t.twn with recency := recency } })))) ∧
  ∀ (f : SenseFrame) (x : CliffSensor) (after : List CliffSensor) (s : State), f.wellFormed = true →
    (f.dropLeft && f.dropRight) = false →
    let v := sensed f s
    let later := laterInput f.age (segmentCount s)
    let enters (xs : List CliffSensor) (t : State) : Prop :=
      exec (.senseFrame f) s = .next (arbitrate ((xs.map Hazard.cliff).foldl later (fire (.cliff x) f.age none t).1))
    (SegmentState s.rct.state ∨ s.rct.state = .undocking →
      (∀ before, firing s f = (before ++ x :: after).map Hazard.cliff → AllConfirm before v →
        (judgeTrust x (before.foldl suspicionOpened v)).1 = false →
        enters after (judgeTrust x (before.foldl suspicionOpened v)).2) ∧
      (firing s f = (x :: after).map Hazard.cliff → AllConfirm (x :: after) v → KeptSuspicions s f → TableLaw s →
        exec (.senseFrame f) s = .next (arbitrate (dockFrame f ((x :: after).foldl suspicionOpened v))))) ∧
    (firing s f = (x :: after).map Hazard.cliff →
      (s.rct.state = .approach → enters after v) ∧
      (s.rct.state = .reflex →
        exec (.senseFrame f) s = .next (arbitrate
          ((after.map Hazard.cliff).foldl eventAlone (fire (.cliff x) f.age none v).1))) ∧
      (s.rct.state = .idle ∨ s.rct.state = .hold ∨ s.rct.state = .docked → KeptSuspicions s f →
        exec (.senseFrame f) s = .next (arbitrate
          (dockFrame f (((x :: after).map Hazard.cliff).foldl eventAlone v)))))

/-- The active suspicions, any number of them, judged at a frame in the order FL, FR, SL, SR, after its new fires have made no
reflex entry: in a state that runs segments or in UNDOCKING the low sensors that fire are none, or all of CONFIRM trust and so
just opened; in APPROACH no input fires, or the bumpers alone, and the approach goes on. A clear reading closes its suspicion,
its sensor armed, with CLIFF_DISCOUNTED. A reading still low confirms it when the travel sum has reached 2048 × the confirm
distance or the time since its opening the confirm time: it fires at once, from APPROACH with DOCK_FAIL (cliff), and those
behind it are closed unjudged. With neither reached it stays as it was; when none is confirmed the DAU takes the frame in
HOMING and APPROACH (R134, R135, R136, R139, R140). -/
def Obligations.SuspicionIsConfirmedKeptOrDiscounted : Prop :=
  ∀ (f : SenseFrame) (s t : State), f.wellFormed = true → (f.dropLeft && f.dropRight) = false →
    ((SegmentState s.rct.state ∨ s.rct.state = .undocking) ∧
        (∃ xs, firing s f = xs.map Hazard.cliff ∧ AllConfirm xs (sensed f s) ∧ t = xs.foldl suspicionOpened (sensed f s)) ∨
      s.rct.state = .approach ∧ t.rct.state = .approach ∧
        (firing s f = [] ∧ t = sensed f s ∨
          ∃ side, firing s f = [.bump side] ∧ t = approachBump side f.contact (sensed f s))) →
    let sensors : List CliffSensor := [.fl, .fr, .sl, .sr]
    ((∀ x, ¬SuspicionConfirmed f t x) →
      exec (.senseFrame f) s = .next (arbitrate (dockFrame f (sensors.foldl (suspicionDiscounted f) t)))) ∧
    ∀ before x after, sensors = before ++ x :: after → (∀ y ∈ before, ¬SuspicionConfirmed f t y) →
      SuspicionConfirmed f t x →
      exec (.senseFrame f) s = .next (arbitrate
        (fire (.cliff x) f.age none (before.foldl (suspicionDiscounted f) t)).1)

/-- A frame with both wheels dropped, in any state but LOADING, LIFTED and FAULT, enters LIFTED: segments discarded, every
reflex, suspicion and approach ended, one zero setpoint frame, LIFTED raised with the discarded count, no other input fired.
The first frame with both wheels down ends it in HOLD with the pose invalid and POSE_LOST; until then nothing but heading,
contact, watch and arming changes. On each of these frames an absent signal arms its input and a present one leaves it as it
was, and no change of state arms anything (R30, R118, R122, R123, R125, R138). That the frame that ends LIFTED fires nothing is
the model's reading (notes/assumptions/12.md). -/
def Obligations.BothWheelsDroppedIsLifted : Prop :=
  ∀ (f : SenseFrame) (s : State), f.wellFormed = true →
    let a : Armed :=
      { s.rfx.armed with
        bumperLeft := s.rfx.armed.bumperLeft || !f.bumperLeft
        bumperRight := s.rfx.armed.bumperRight || !f.bumperRight
        dropLeft := s.rfx.armed.dropLeft || !f.dropLeft
        dropRight := s.rfx.armed.dropRight || !f.dropRight
        cliff :=
          { fl := s.rfx.armed.cliff.fl || decide (s.tbs.cal.cliffThreshold ≤ f.cliffFL)
            fr := s.rfx.armed.cliff.fr || decide (s.tbs.cal.cliffThreshold ≤ f.cliffFR)
            sl := s.rfx.armed.cliff.sl || decide (s.tbs.cal.cliffThreshold ≤ f.cliffSL)
            sr := s.rfx.armed.cliff.sr || decide (s.tbs.cal.cliffThreshold ≤ f.cliffSR) } }
    (f.dropLeft = true → f.dropRight = true → s.rct.state ≠ .loading → s.rct.state ≠ .lifted → s.rct.state ≠ .fault →
      exec (.senseFrame f) s = .next (arbitrate
        (raise .lifted (.discarded (s.mgt.queue.length + (if s.mgt.current = none then 0 else 1)))
          { s with
            pot := { s.pot with pose := { s.pot.pose with heading := turned s.pot.pose.heading f.yaw } }
            snp := { s.snp with watch := .up s.pot.timeCount, lastContact := f.contact }
            rct := { s.rct with state := .lifted, pendingStep := false }
            mgt := { s.mgt with queue := [], current := none, starved := false }
            rfx := { s.rfx with phase := .none, suspects := noSuspects, armed := a }
            dau := if s.rct.state = .approach ∨ s.rct.state = .docked ∨ s.rct.state = .undocking then idleDock else s.dau
            dli := { s.dli with
              lastSetpoints := (0, 0)
              leaving := leavingAfter (.setpoint 0 0) s.dli.leaving
              waiting := waitingAfter (.setpoint 0 0) s.dli.leaving s.dli.waiting } }))) ∧
    (s.rct.state = .lifted → f.dropLeft = false → f.dropRight = false →
      exec (.senseFrame f) s = .next (arbitrate
        (raise .poseLost .lifted
          { s with
            pot := { s.pot with
              pose := { s.pot.pose with heading := turned s.pot.pose.heading f.yaw, valid := false } }
            snp := { s.snp with watch := .up s.pot.timeCount, lastContact := f.contact }
            rct := { s.rct with state := .hold, pendingStep := false }
            rfx := { s.rfx with phase := .none, suspects := noSuspects, armed := a } }))) ∧
    (s.rct.state = .lifted → (f.dropLeft = true ∨ f.dropRight = true) →
      exec (.senseFrame f) s = .next (arbitrate
          { s with
            pot := { s.pot with pose := { s.pot.pose with heading := turned s.pot.pose.heading f.yaw } }
            snp := { s.snp with watch := .up s.pot.timeCount, lastContact := f.contact }
            rfx := { s.rfx with armed := a } }))

/-! ## Docking -/

/-- What the DAU does with a sense frame in HOMING and in DOCKED, on the state that the RFX leaves; in every run state but
these and APPROACH it does nothing. In HOMING a dock-code observation that shows the centre receiver, with the pose invalid or
within the approach radius of the dock on its level, hands over: APPROACH in phase TRACK, the segments discarded, the approach
bump count 0, the last sector CENTRE and the lost-beacon timer started, the open suspicions kept; any other frame leaves HOMING
as it is. In DOCKED a frame with contact clears the contact count and one without adds one; the fifth in a row without contact
ends in HOLD with DOCK_LOST. A frame on which no input fires and no suspicion ends does this alone, beside turning and arming
(R116, R136, R139, R144, R145, R153). -/
def Obligations.HomingHandsOverAndDockedWatches : Prop :=
  (∀ (f : SenseFrame) (t : State), t.rct.state = .homing →
     let dx : Int := ((t.pot.pose.x / 16 : Nat) : Int) - t.tbs.dock.x
     let dy : Int := ((t.pot.pose.y / 16 : Nat) : Int) - t.tbs.dock.y
     let seen := ∃ b, f.beacon = some b ∧ b.code = t.tbs.dock.code ∧ b.centre = true
     let near := t.pot.pose.valid = false ∨
       (t.pot.pose.level = t.tbs.dock.level ∧ dx * dx + dy * dy ≤ (t.tbs.cal.approachRadius : Int) * t.tbs.cal.approachRadius)
     (seen → near →
       dockFrame f t =
         { t with
           rct := { t.rct with state := .approach, pendingStep := false }
           mgt := { t.mgt with queue := [], current := none, starved := false }
           rfx := { t.rfx with phase := .none, approachBumps := 0 }
           dau := { phase := .track, lastSector := some .centre, beaconTimer := some t.pot.timeCount, searchTurn := 0,
                    contactCount := 0, idWait := 0, reverse := none } }) ∧
     (¬(seen ∧ near) → dockFrame f t = t)) ∧
  (∀ (f : SenseFrame) (t : State), t.rct.state = .docked →
    (f.contact = true → dockFrame f t = { t with dau := { t.dau with contactCount := 0 } }) ∧
    (f.contact = false → t.dau.contactCount < 4 →
      dockFrame f t = { t with dau := { t.dau with contactCount := t.dau.contactCount + 1 } }) ∧
    (f.contact = false → 4 ≤ t.dau.contactCount →
      dockFrame f t = raise .dockLost (.dockCode t.tbs.dock.code)
        { t with
          rct := { t.rct with state := .hold, pendingStep := false }
          rfx := { t.rfx with phase := .none, suspects := noSuspects }
          dau := idleDock })) ∧
  (∀ (f : SenseFrame) (t : State), t.rct.state ≠ .homing → t.rct.state ≠ .approach → t.rct.state ≠ .docked →
    dockFrame f t = t) ∧
  ∀ (f : SenseFrame) (s : State), f.wellFormed = true → Settled s f → s.rct.state = .homing ∨ s.rct.state = .docked →
    exec (.senseFrame f) s = .next (arbitrate (dockFrame f (sensed f s)))

/-- What the DAU does with a sense frame in APPROACH, by phase, on the state that the RFX leaves. An observation of the dock's
code sets the last sector, CENTRE for the centre receiver or both sides; in TRACK it restarts the lost-beacon timer and in
SEARCH it returns to TRACK. In TRACK and SEARCH a contact counts toward five in a row and its absence clears the count; the
fifth is ContactIsJudgedByDockId's. In SEARCH the yaw joins the search turn sum, and at 4096 the approach fails in HOLD with
DOCK_FAIL (no beacon). In BUMP_HALT and BUMP_REVERSE the last sector alone is set. A frame on which no input fires and no
suspicion ends does this alone, beside turning and arming (R136, R143, R144, R148, R150). That a SEARCH frame with an
observation leaves the contact count is the model's choice between R148 and R150 (notes/assumptions/33.md). -/
def Obligations.ApproachFollowsTheBeacon : Prop :=
  (∀ (f : SenseFrame) (t : State), t.rct.state = .approach →
    let sector := seenSector t f
    let count := if f.contact then t.dau.contactCount + 1 else 0
    let sum := t.dau.searchTurn + f.yaw.natAbs
    (t.dau.phase = .track → count < 5 →
      dockFrame f t = { t with dau := { t.dau with
        contactCount := count
        lastSector := if sector = none then t.dau.lastSector else sector
        beaconTimer := if sector = none then t.dau.beaconTimer else some t.pot.timeCount } }) ∧
    (t.dau.phase = .search → sector ≠ none →
      dockFrame f t = { t with dau := { t.dau with
        phase := .track, lastSector := sector, beaconTimer := some t.pot.timeCount, searchTurn := 0 } }) ∧
    (t.dau.phase = .search → sector = none → count < 5 →
      (sum < 4096 → dockFrame f t = { t with dau := { t.dau with contactCount := count, searchTurn := sum } }) ∧
      (4096 ≤ sum →
        dockFrame f t = raise .dockFail (.dockFailure .noBeacon)
          { t with
            rct := { t.rct with state := .hold, pendingStep := false }
            rfx := { t.rfx with phase := .none, suspects := noSuspects }
            dau := idleDock })) ∧
    (t.dau.phase = .bumpHalt ∨ t.dau.phase = .bumpReverse →
      dockFrame f t = { t with dau := { t.dau with
        lastSector := if sector = none then t.dau.lastSector else sector } })) ∧
  ∀ (f : SenseFrame) (s : State), f.wellFormed = true → Settled s f → s.rct.state = .approach →
    exec (.senseFrame f) s = .next (arbitrate (dockFrame f (sensed f s)))

/-- In CONTACT, and at the frame that brings the fifth contact in a row, which begins CONTACT, the frame is judged, whether or
not it carries an observation, which sets the last sector. In SEARCH the fifth comes with a frame that carries none. Without
contact the phase returns to TRACK. With another dock's ID the approach fails with DOCK_FAIL (wrong dock), and at the tenth
frame without an ID with DOCK_FAIL (no ID), both in HOLD. With the dock's own ID the robot is DOCKED: the pose snaps to the
dock record, valid and with an empty history; a dock on another level empties the window, or keeps the level with DOCK_FAIL
(level held) while a slot is MARKED or SENT. A frame on which no input fires and no suspicion ends does this alone, beside
turning and arming (R34, R136, R144, R148, R150, R151, R152). The pose that the last event's frame carries, by the validity at
that moment, is the model's reading (notes/assumptions/30.md), and that a SEARCH frame with an observation is not counted its
choice (33.md). -/
def Obligations.ContactIsJudgedByDockId : Prop :=
  (∀ (f : SenseFrame) (t : State), t.rct.state = .approach →
    let d := t.tbs.dock
    let sector := seenSector t f
    let fifth := (t.dau.phase = .track ∨ t.dau.phase = .search ∧ sector = none) ∧ 4 ≤ t.dau.contactCount ∧ f.contact = true
    let wait := if t.dau.phase = .contact then t.dau.idWait + 1 else 1
    let seen : DockUnit := { t.dau with lastSector := if sector = none then t.dau.lastSector else sector }
    let judged : DockUnit := if t.dau.phase = .contact then seen else
      { seen with phase := .contact, beaconTimer := none, searchTurn := 0, contactCount := 5, idWait := 0 }
    let failed (r : DockFailure) : State := raise .dockFail (.dockFailure r)
      { t with
        rct := { t.rct with state := .hold, pendingStep := false }
        rfx := { t.rfx with phase := .none, suspects := noSuspects }
        dau := idleDock }
    let held := (∃ i u m, t.twn.slot i = .marked u m) ∨ (∃ i u m, t.twn.slot i = .sent u m)
    let docked (u : State) : State := raise .docked (.dockCode d.code)
      { u with
        pot := { u.pot with pose := { u.pot.pose with valid := true }, history := [] }
        rct := { t.rct with state := .docked, pendingStep := false }
        rfx := { t.rfx with phase := .none, suspects := noSuspects }
        dau := idleDock }
    let snapped (level : Nat) : PoseTracker := { t.pot with
      pose := { t.pot.pose with level := level, x := d.x * 16, y := d.y * 16, heading := d.heading } }
    (t.dau.phase = .contact → f.contact = false →
      dockFrame f t = { t with dau := { seen with
        phase := .track, beaconTimer := some t.pot.timeCount, contactCount := 0, idWait := 0 } }) ∧
    ((t.dau.phase = .contact ∧ f.contact = true) ∨ fifth →
      (∀ id, f.dockId = some id → id ≠ d.code → dockFrame f t = failed .wrongDock) ∧
      (f.dockId = none → 10 ≤ wait → dockFrame f t = failed .noId) ∧
      (f.dockId = none → wait < 10 → dockFrame f t = { t with dau := { judged with idWait := wait } }) ∧
      (f.dockId = some d.code →
        (d.level = t.pot.pose.level → dockFrame f t = docked { t with pot := snapped d.level }) ∧
        (d.level ≠ t.pot.pose.level → ¬held →
          dockFrame f t = docked
            { t with
              pot := snapped d.level
              twn := { slots := Vector.replicate 16 .empty, recency := [], unsolicited := t.twn.unsolicited }
              pli := { t.pli with requests := [] } }) ∧
        (d.level ≠ t.pot.pose.level → held →
          dockFrame f t = docked
            (raise .dockFail (.dockFailure .levelHeld) { t with pot := snapped t.pot.pose.level }))))) ∧
  ∀ (f : SenseFrame) (s : State), f.wellFormed = true → Settled s f → s.rct.state = .approach →
    exec (.senseFrame f) s = .next (arbitrate (dockFrame f (sensed f s)))

/-- A bumper that fires in APPROACH, with no wheel drop firing before it. With the dock contact it is no event, in any phase.
Without it, it is an approach bump: BUMP with no count, no mark and no discard, one zero setpoint frame, and the bump count one
higher; at 1 and 2 the phase becomes BUMP_HALT with the lost-beacon timer stopped, and at 3 the approach fails in HOLD with
DOCK_FAIL (bumps). While the approach goes on and nothing else fires, the DAU then takes the frame, which counts a contact; a
low cliff sensor on the same frame makes its reflex entry on what the bumper leaves, the others being its later inputs, and
after a third bump raises its event alone (R124, R125, R139, R144, R149). That the side is of the bumpers that fire is the
model's reading (notes/assumptions/13.md). -/
def Obligations.ApproachBumpsHaltOrFail : Prop :=
  (∀ (side : Side) (t : State), t.rct.state = .approach →
    let halted : DriveLink := { t.dli with
      lastSetpoints := (0, 0)
      leaving := leavingAfter (.setpoint 0 0) t.dli.leaving
      waiting := waitingAfter (.setpoint 0 0) t.dli.leaving t.dli.waiting }
    let count := min 3 (t.rfx.approachBumps + 1)
    approachBump side true t = t ∧
    (count < 3 →
      approachBump side false t = raise .bump (.hazard (.bump side) none)
        { t with
          rfx := { t.rfx with approachBumps := count }
          dli := halted
          dau := { t.dau with phase := .bumpHalt, beaconTimer := none, contactCount := 0, idWait := 0, reverse := none } }) ∧
    (count = 3 →
      approachBump side false t = raise .dockFail (.dockFailure .bumps) (raise .bump (.hazard (.bump side) none)
        { t with
          rct := { t.rct with state := .hold, pendingStep := false }
          rfx := { t.rfx with phase := .none, suspects := noSuspects, approachBumps := count }
          dli := halted
          dau := idleDock }))) ∧
  ∀ (f : SenseFrame) (side : Side) (rest : List Hazard) (s : State), f.wellFormed = true → s.rct.state = .approach →
    (f.dropLeft && f.dropRight) = false → firing s f = .bump side :: rest →
    let b := approachBump side f.contact (sensed f s)
    (b.rct.state = .hold → exec (.senseFrame f) s = .next (arbitrate (rest.foldl eventAlone b))) ∧
    (b.rct.state = .approach →
      (rest = [] → KeptSuspicions s f → exec (.senseFrame f) s = .next (arbitrate (dockFrame f b))) ∧
      ∀ h more, rest = h :: more →
        exec (.senseFrame f) s = .next (arbitrate
          (more.foldl (laterInput f.age (segmentCount s)) (fire h f.age none b).1)))

/-! ## Timers -/

/-- The moves that end by time. A back-off ends in HOLD at the back-off time limit; TRACK becomes SEARCH at the beacon lost time
without an observation; an approach bump's reverse ends in TRACK at the back-off time limit, the lost-beacon timer started; an
undock ends in HOLD at three times that limit (R128, R147, R149, R154). An expiry command of any timer that is not due at the
time count and calibration of that moment changes nothing: that an expiry is guarded by the comparison of its rule is the model's
reading (notes/assumptions/5.md). -/
def Obligations.MovesEndByTimeAndOnlyWhenDue : Prop :=
  (∀ s : State, PhaseLaw s →
     (DueAt s .backOffTimeLimit →
       exec .backOffTimeLimit s = .next
         { s with
           rct := { s.rct with state := .hold, pendingStep := false }
           rfx := { s.rfx with phase := .none, suspects := noSuspects } }) ∧
     (DueAt s .lostBeaconExpiry →
       exec .lostBeaconExpiry s = .next
         { s with dau := { s.dau with phase := .search, beaconTimer := none, searchTurn := 0 } }) ∧
     (DueAt s .bumpReverseTimeLimit →
       exec .bumpReverseTimeLimit s = .next
         { s with dau := { s.dau with phase := .track, beaconTimer := some s.pot.timeCount, reverse := none } }) ∧
     (DueAt s .undockTimeLimit →
       exec .undockTimeLimit s = .next
         { s with
           rct := { s.rct with state := .hold, pendingStep := false }
           rfx := { s.rfx with phase := .none, suspects := noSuspects }
           dau := idleDock })) ∧
  ∀ (c : Instr) (s : State), isExpiry c = true → ¬DueAt s c → exec c s = .next s

/-- The timers of the window and the lines. A request's timeout empties its PENDING slot, withdraws a waiting TILE_REQUEST and
raises TILE_LATE. The brush timeout raises BRUSH_NO_ACK and sends at once, reserving for it, the pending state or else the last
wish. A line's timeout makes its watch LOST, raises its event with "stopped" after UP and "never answered" after WAITING, and
enters FAULT with the segments discarded; in FAULT already nothing more is discarded (R48, R117, R162, R164). That a second
line's loss leaves even the segments that arrived in FAULT is the model's reading (notes/assumptions/28.md, unsafe). -/
def Obligations.LineAndRequestTimeouts : Prop :=
  (∀ (i : SlotNo) (k : TileKey) (at_ : Time) (s : State), s.twn.slot i = .pending k at_ → DueAt s (.requestTimeout i) →
    exec (.requestTimeout i) s = .next (arbitrate (raise .tileLate (.key k)
      { s with
        twn := { s.twn with slots := s.twn.slots.set i .empty, recency := s.twn.recency.erase i }
        pli := { s.pli with requests := s.pli.requests.filter (fun r => r ≠ k) } }))) ∧
  (∀ (r : Reservation) (s : State), s.dli.reservation = some r → DueAt s .brushTimeout →
    let command := s.dli.pendingBrush.getD s.dli.lastWish
    exec .brushTimeout s = .next (arbitrate (raise .brushNoAck (.brush r.commanded)
      { s with dli := { s.dli with
          reservation := some { commanded := command, sentAt := s.pot.timeCount }
          pendingBrush := none
          leaving := leavingAfter (.brush (some command)) s.dli.leaving
          waiting := waitingAfter (.brush (some command)) s.dli.leaving s.dli.waiting } }))) ∧
  ∀ (l : Line) (s : State), DueAt s (.linkTimeout l) →
    let before := match l with | .drive => s.dli.watch | .sense => s.snp.watch
    ∃ (event : EventKind) (detail : Detail) (u : State),
      event = (match l with | .drive => .driveLost | .sense => .senseLost) ∧
      (∀ start, before = .up start → detail = .stopped) ∧ (∀ start, before = .waiting start → detail = .neverAnswered) ∧
      exec (.linkTimeout l) s = .next (arbitrate (raise event detail u)) ∧
      (l = .drive → u.dli = { s.dli with watch := .lost } ∧ u.snp = s.snp) ∧
      (l = .sense → u.snp = { s.snp with watch := .lost } ∧ u.dli = s.dli) ∧
      (s.rct.state = .fault → u = { s with dli := u.dli, snp := u.snp }) ∧
      (s.rct.state ≠ .fault →
        u = { s with
          dli := u.dli
          snp := u.snp
          rct := { s.rct with state := .fault, pendingStep := false }
          mgt := { s.mgt with queue := [], current := none, starved := false }
          rfx := { s.rfx with phase := .none, suspects := noSuspects }
          dau := if s.rct.state = .approach ∨ s.rct.state = .docked ∨ s.rct.state = .undocking then idleDock
                 else s.dau })

/-! ## The control period and the gate -/

/-- Every control period expiry sends exactly two frames on the Drive Link behind those it holds, a setpoint frame with both
speeds within Vwheel and then a brush frame; it takes at most one mode command, starts the next period with the stored length,
and moves neither pose nor tables. The brush frame carries the wish only when the brush is unreserved and in another state. In a
still state with no mode command waiting both speeds are zero and the wish is STOP (R88, R89, R98, R99, R109, R157, R161). That
the next period starts at the time count at which the expiry is taken is the model's reading (notes/assumptions/27.md). -/
def Obligations.ExpirySendsSetpointThenBrush : Prop :=
  ∀ s : State, DueAt s .controlPeriodExpiry → DriveQueueLaw s →
    ∃ (u : State) (vL vR : Int) (command : Option BrushState), exec .controlPeriodExpiry s = .next (arbitrate u) ∧
      driveFrames u.dli = driveFrames s.dli ++ [.setpoint vL vR, .brush command] ∧
      vL.natAbs ≤ s.tbs.cal.vWheel ∧ vR.natAbs ≤ s.tbs.cal.vWheel ∧ u.dli.lastSetpoints = (vL, vR) ∧
      u.rct.modeQueue = s.rct.modeQueue.tail ∧
      u.mgt.period = some { start := s.pot.timeCount, length := s.tbs.cal.controlPeriod } ∧
      u.pot = s.pot ∧ u.tbs = s.tbs ∧ u.snp = s.snp ∧ u.dli.brushState = s.dli.brushState ∧
      (s.dli.reservation = none → u.dli.lastWish = s.dli.brushState →
        command = none ∧ u.dli.reservation = none ∧ u.dli.pendingBrush = s.dli.pendingBrush) ∧
      (s.dli.reservation = none → u.dli.lastWish ≠ s.dli.brushState →
        command = some u.dli.lastWish ∧ u.dli.pendingBrush = none ∧
          u.dli.reservation = some { commanded := u.dli.lastWish, sentAt := s.pot.timeCount }) ∧
      (∀ r, s.dli.reservation = some r → command = none ∧ u.dli.reservation = some r ∧
        u.dli.pendingBrush = if u.dli.lastWish = r.commanded then none else some u.dli.lastWish) ∧
      (StillState s.rct.state → PhaseLaw s → s.rct.modeQueue = [] →
        vL = 0 ∧ vR = 0 ∧ u.dli.lastWish = .stop ∧ u.mgt.result = { vc := 0, vlim := none, kStar := 0, scaled := false } ∧
          u.rct = s.rct ∧ u.rfx = s.rfx ∧ u.dau = s.dau ∧ u.twn = s.twn ∧ u.mgt.queue = s.mgt.queue ∧
          u.mgt.current = s.mgt.current)

/-- An expiry with no mode command waiting and no phase about to change. In a state that runs segments the head of the queue
becomes current first, if none is; the gate computes on that state, and what it gives is sent and stored. Then the length of
the period that has ended joins the current segment's elapsed time, and a TIME segment that reaches its limit completes: STEP
becomes HOLD, otherwise the next segment becomes current or the robot is starved (R82, R83, R84, R98, R100, R114). That the
addition and the completion belong to the gate's part of the expiry, and that a segment taken at this expiry gains its period
too, are the model's readings (notes/assumptions/18.md, 32.md). -/
def Obligations.ExpiryRunsTheGateThenTheSegment : Prop :=
  ∀ (p : Period) (s : State), s.mgt.period = some p → DueAt s .controlPeriodExpiry → s.rct.modeQueue = [] →
    (∀ h, s.rfx.phase ≠ .halt h) → s.dau.phase ≠ .bumpHalt → s.mgt.completed ≤ 65535 →
    ∃ (h u : State), exec .controlPeriodExpiry s = .next (arbitrate u) ∧
      (∀ g rest, SegmentState s.rct.state → s.mgt.current = none → s.mgt.queue = g :: rest →
        h = { s with
          choices := s.choices + 1
          mgt := { s.mgt with
            queue := rest, current := some { segment := g, travel := 0, elapsed := 0 }, starved := false }
          rct := { s.rct with pendingStep := false } }) ∧
      (¬SegmentState s.rct.state ∨ s.mgt.current ≠ none ∨ s.mgt.queue = [] → h = { s with choices := s.choices + 1 }) ∧
      u.dli.lastSetpoints = ((gateCompute h).1.vL, (gateCompute h).1.vR) ∧ u.dli.lastWish = (gateCompute h).1.wish ∧
      u.mgt.result = (gateCompute h).1.result ∧ u.twn = (gateCompute h).2.twn ∧
      (¬SegmentState s.rct.state ∨ h.mgt.current = none →
        u.rct = h.rct ∧ u.mgt.queue = h.mgt.queue ∧ u.mgt.current = h.mgt.current ∧ u.mgt.completed = h.mgt.completed) ∧
      ∀ c, SegmentState s.rct.state → h.mgt.current = some c →
        let count := if s.mgt.completed = 65535 then 0 else s.mgt.completed + 1
        ((c.segment.kind = .dist ∧ c.travel < 2048 * c.segment.limit) ∨
            (c.segment.kind = .time ∧ c.elapsed + p.length < c.segment.limit) →
          u.rct = h.rct ∧ u.mgt.queue = h.mgt.queue ∧ u.mgt.completed = s.mgt.completed ∧
            u.mgt.current = some { c with elapsed := c.elapsed + p.length }) ∧
        (c.segment.kind = .time → c.segment.limit ≤ c.elapsed + p.length →
          u.mgt.completed = count ∧
          (s.rct.state = .step →
            u.rct.state = .hold ∧ u.mgt.current = none ∧ u.mgt.queue = h.mgt.queue) ∧
          (s.rct.state ≠ .step → h.mgt.queue = [] →
            u.rct = h.rct ∧ u.mgt.current = none ∧ u.mgt.starved = true ∧ Flagged u .segmentsEmpty (.tag c.segment.tag)) ∧
          ∀ g rest, s.rct.state ≠ .step → h.mgt.queue = g :: rest →
            u.rct = h.rct ∧ u.mgt.queue = rest ∧ u.mgt.starved = false ∧
              u.mgt.current = some { segment := g, travel := 0, elapsed := 0 })

/-- The expiry after a reflex entry or an approach bump changes the phase: HALT to BACK, BUMP_HALT to BUMP_REVERSE, with the
travel sum 0 and the start now. The pair of that expiry is zero, or what the gate gives in the new phase: which of the two
comes first is free (R88, R127, R149; notes/assumptions/3.md). -/
def Obligations.ExpiryEndsTheHalt : Prop :=
  ∀ s : State, DueAt s .controlPeriodExpiry → s.rct.modeQueue = [] → PhaseLaw s →
    (∀ h, s.rfx.phase = .halt h →
      ∃ u, exec .controlPeriodExpiry s = .next (arbitrate u) ∧ u.rct = s.rct ∧ u.dau = s.dau ∧
        u.rfx = { s.rfx with phase := .back h { travel := 0, start := s.pot.timeCount } } ∧
        (u.dli.lastSetpoints = (0, 0) ∨
          u.dli.lastSetpoints =
            ((gateCompute { s with rfx := u.rfx }).1.vL, (gateCompute { s with rfx := u.rfx }).1.vR))) ∧
    (s.dau.phase = .bumpHalt →
      ∃ u, exec .controlPeriodExpiry s = .next (arbitrate u) ∧ u.rct = s.rct ∧ u.rfx = s.rfx ∧
        u.dau = { s.dau with phase := .bumpReverse, reverse := some { travel := 0, start := s.pot.timeCount } } ∧
        (u.dli.lastSetpoints = (0, 0) ∨
          u.dli.lastSetpoints =
            ((gateCompute { s with dau := u.dau }).1.vL, (gateCompute { s with dau := u.dau }).1.vR)))

/-- The take of the oldest mode command, by the legality table. A command that the table does not allow is discarded with
COMMAND_REFUSED and changes nothing else. Stop discards the segments and ends reflex, suspicions, approach and undock in IDLE.
Hold does so but keeps the segments, and raises DOCK_FAIL (held) in APPROACH. Resume, Creep, Step and Return enter their state,
arming every hazard input from a state outside the four; Step without any segment gives HOLD. Undock begins the reverse
measure. At an expiry with a command waiting the take comes first, and all that the expiry does with no command waiting follows
on the state that the take leaves; or all that comes first, and the take is made on the state that it leaves. In that second
order a Step in RUN or CREEP whose segment `r` reaches its limit at this expiry is taken before `r` completes: the expiry does
what it does with no command waiting and a later limit, and then `r` completes in STEP, into HOLD, with no successor. So in
either order the segment that this computation ran, the current one or else the head of the queue, is the step's segment and
gains the period that has ended; without one the Step gives HOLD. Commands behind the oldest wait on (R88, R109, R110, R111,
R112, R113, R114, R115, R123, R164). Which of the two orders an expiry has is free (notes/assumptions/3.md); that the take of any
other command never comes between the hand-over of the period's length and the completion of the TIME segment (18.md), that a
segment gains the period at whose expiry it is taken (32.md), and that a line is up exactly while its watch is UP (24.md), are
the model's readings, all unsafe. -/
def Obligations.ModeCommandIsTakenByLegality : Prop :=
  (∀ (c : ModeCommand) (rest : List ModeCommand) (s : State), s.rct.modeQueue = c :: rest →
     let up := decide ((∃ t, s.dli.watch = .up t) ∧ (∃ t, s.snp.watch = .up t))
     let armed := if s.rct.state = .run ∨ s.rct.state = .creep ∨ s.rct.state = .step then s.rfx.armed else allArmed
     let entered (r : RunState) : State := { s with
       rct := { s.rct with state := r, modeQueue := rest, pendingStep := false }
       rfx := { s.rfx with phase := .none, armed := armed } }
     let stopped (r : RunState) : State := { s with
       rct := { s.rct with state := r, modeQueue := rest, pendingStep := false }
       rfx := { s.rfx with phase := .none, suspects := noSuspects }
       dau := if s.rct.state = .approach ∨ s.rct.state = .docked ∨ s.rct.state = .undocking then idleDock else s.dau }
     (legalityTable up s.rct.state c.kind = [] →
       takeMode s = raise .commandRefused (.refused (.mode c.kind)) { s with rct := { s.rct with modeQueue := rest } }) ∧
     (legalityTable up s.rct.state c.kind ≠ [] →
       (takeMode s).rct.state ∈ legalityTable up s.rct.state c.kind ∧
       (c.kind = .stop → takeMode s =
         { stopped .idle with mgt := { s.mgt with queue := [], current := none, starved := false } }) ∧
       (c.kind = .hold → takeMode s =
         if s.rct.state = .approach then raise .dockFail (.dockFailure .held) (stopped .hold) else stopped .hold) ∧
       (c.kind = .resume → takeMode s = entered .run) ∧
       (c.kind = .creep → takeMode s =
         { entered .creep with rct := { (entered .creep).rct with creep := c.factor } }) ∧
       (c.kind = .returnHome → takeMode s = entered .homing) ∧
       (c.kind = .step → takeMode s =
         if s.mgt.current = none ∧ s.mgt.queue = [] then stopped .hold
         else { entered .step with rct := { (entered .step).rct with pendingStep := s.mgt.current.isNone } }) ∧
       (c.kind = .undock → takeMode s =
         { s with
           rct := { s.rct with state := .undocking, modeQueue := rest, pendingStep := false }
           rfx := { s.rfx with phase := .none }
           dau := { idleDock with reverse := some { travel := 0, start := s.pot.timeCount } } }))) ∧
  ∀ (c : ModeCommand) (rest : List ModeCommand) (p : Period) (s : State), s.rct.modeQueue = c :: rest →
    s.mgt.period = some p → DueAt s .controlPeriodExpiry →
    let queue (l : List ModeCommand) (t : State) : State := { t with rct := { t.rct with modeQueue := l } }
    let stepping : Prop := c.kind = .step ∧ (s.rct.state = .run ∨ s.rct.state = .creep)
    let ran : Option CurrentSegment := if s.mgt.current = none then
      s.mgt.queue.head?.map (fun g => { segment := g, travel := 0, elapsed := 0 }) else s.mgt.current
    let left : List Segment := if s.mgt.current = none then s.mgt.queue.tail else s.mgt.queue
    let ends (r : CurrentSegment) : Prop := (r.segment.kind = .dist ∧ 2048 * r.segment.limit ≤ r.travel) ∨
      (r.segment.kind = .time ∧ r.segment.limit ≤ r.elapsed + p.length)
    let longer (r : CurrentSegment) : State := { s with mgt := { s.mgt with
      current := some { r with segment := { r.segment with limit := r.travel + r.elapsed + p.length + 1 } }
      queue := left, starved := if s.mgt.current = none then false else s.mgt.starved } }
    (∃ v : State,
      (exec .controlPeriodExpiry (queue [] (takeMode s)) = .next (arbitrate v) ∧
        exec .controlPeriodExpiry s = .next (arbitrate (queue rest v))) ∨
      ((stepping → ∀ r, ran = some r → ¬ends r) ∧
        exec .controlPeriodExpiry (queue [] s) = .next (arbitrate v) ∧
        exec .controlPeriodExpiry s = .next (arbitrate (takeMode (queue (c :: rest) v)))) ∨
      ∃ r, stepping ∧ ran = some r ∧ ends r ∧
        exec .controlPeriodExpiry (queue [] (longer r)) = .next (arbitrate v) ∧
        exec .controlPeriodExpiry s = .next (arbitrate { v with
          rct := { s.rct with state := .hold, modeQueue := rest, pendingStep := false }
          rfx := { v.rfx with phase := .none, suspects := noSuspects }
          mgt := { v.mgt with current := none, completed := (s.mgt.completed + 1) % 65536 } })) ∧
    (stepping → ∃ u : State, exec .controlPeriodExpiry s = .next (arbitrate u) ∧ u.rct.modeQueue = rest ∧
      u.rct.pendingStep = false ∧ u.mgt.queue = left ∧
      (ran = none → u.rct.state = .hold ∧ u.mgt.current = none ∧ u.mgt.completed = s.mgt.completed) ∧
      ∀ r, ran = some r →
        (¬ends r → u.rct.state = .step ∧ u.mgt.current = some { r with elapsed := r.elapsed + p.length } ∧
          u.mgt.completed = s.mgt.completed) ∧
        (ends r → u.rct.state = .hold ∧ u.mgt.current = none ∧ u.mgt.completed = (s.mgt.completed + 1) % 65536))

/-- The gate's source by run state, and its outcome with no source and in the spin case. Without a source the pair is zero and
nothing is looked up. Otherwise the source is held to Vwheel on each wheel; when the truncated mean of the held pair is 0 each
wheel is held to floor(Vspin / n), n being the creep factor in CREEP and 1 elsewhere, no limit is computed, and nothing is
looked up but, in the four segment states with the pose valid, the centre cell, by the lookup of ScanFindsTheFirstStop (R89,
R90, R91, R100, R146, R154). -/
def Obligations.GateSpinsOnZeroCentreSpeed : Prop :=
  ∀ s : State,
    let a : Int := s.tbs.cal.approachSpeed
    let w : Int := s.tbs.cal.approachTurnSpeed
    let b : Int := s.tbs.cal.backOffSpeed
    (SegmentState s.rct.state →
      gateSource s = some (match s.mgt.current with | none => (0, 0) | some c => (c.segment.vL, c.segment.vR))) ∧
    (s.rct.state = .undocking → gateSource s = some (-a, -a)) ∧
    (∀ h m, s.rct.state = .reflex → s.rfx.phase = .back h m → gateSource s = some (-b, -b)) ∧
    (∀ h, s.rct.state = .reflex → s.rfx.phase = .halt h → gateSource s = none) ∧
    (StillState s.rct.state → gateSource s = none) ∧
    (s.rct.state = .approach →
      (s.dau.phase = .track → s.dau.lastSector = some .centre → gateSource s = some (a, a)) ∧
      (s.dau.phase = .track → s.dau.lastSector = some .left → gateSource s = some (-w, w)) ∧
      (s.dau.phase = .track → s.dau.lastSector = some .right → gateSource s = some (w, -w)) ∧
      (s.dau.phase = .search → s.dau.lastSector = some .right → gateSource s = some (w, -w)) ∧
      (s.dau.phase = .search → s.dau.lastSector ≠ some .right → gateSource s = some (-w, w)) ∧
      (s.dau.phase = .bumpReverse → gateSource s = some (-b, -b)) ∧
      (s.dau.phase = .bumpHalt ∨ s.dau.phase = .contact → gateSource s = some (0, 0))) ∧
    (gateSource s = none →
      (gateCompute s).2 = s ∧ (gateCompute s).1.vL = 0 ∧ (gateCompute s).1.vR = 0 ∧
        (gateCompute s).1.result = { vc := 0, vlim := none, kStar := 0, scaled := false }) ∧
    ∀ srcL srcR, gateSource s = some (srcL, srcR) →
      let limit : Int := s.tbs.cal.vWheel
      let spin : Int := ((s.tbs.cal.vSpin / (if s.rct.state = .creep then s.rct.creep else 1) : Nat) : Int)
      let vL := max (-limit) (min limit srcL)
      let vR := max (-limit) (min limit srcR)
      (vL + vR).tdiv 2 = 0 →
        (gateCompute s).1.vL = max (-spin) (min spin vL) ∧ (gateCompute s).1.vR = max (-spin) (min spin vR) ∧
        (gateCompute s).1.result =
          { vc := 0, vlim := none, kStar := 0
            scaled := decide ((gateCompute s).1.vL ≠ srcL ∨ (gateCompute s).1.vR ≠ srcR) } ∧
        (SegmentState s.rct.state → s.pot.pose.valid = true →
          (gateCompute s).2 = (lookup { col := s.pot.pose.x / 800, row := s.pot.pose.y / 800 } s).2) ∧
        (¬SegmentState s.rct.state ∨ s.pot.pose.valid = false → (gateCompute s).2 = s)

/-- The lookup, and the scan with the pose valid. A lookup answers the class that the window holds for the cell, or unknown. A hit
moves its slot to most-recent, a PENDING slot is left as it is, and a miss makes a request for the key when the pose is valid;
nothing else changes. Sample k of the scan lies Ld + 50 (k − 1) mm along the heading, or along its reverse for a negative centre
speed. The first of the L samples that lies off the level, is unknown, or is of a blocking class gives k* and the brake limit
B[k*]; with none, k* is 0 and the brake limit Vclear. The scan leaves what the lookups of the samples from 1 to k*, or of all L,
leave, one after another; a sample off the level is not looked up (R38, R41, R42, R92, R93). -/
def Obligations.ScanFindsTheFirstStop : Prop :=
  (∀ (c : Cell) (s : State), WindowLaw s →
    let key := c.key s.pot.pose.level
    (lookup c s).1 = classAt s c ∧
    (∀ i t, (s.twn.slot i).tile? = some t → t.key = key →
      lookup c s = (some t.cells[c.index], { s with twn := { s.twn with recency := s.twn.recency.erase i ++ [i] } })) ∧
    (∀ i at_, s.twn.slot i = .pending key at_ → lookup c s = (none, s)) ∧
    ((∀ i, (s.twn.slot i).key? ≠ some key) →
      lookup c s = (none, if s.pot.pose.valid then request key s else s))) ∧
  ∀ (vc : Int) (s : State), vc ≠ 0 → s.pot.pose.valid = true → s.tbs.response[15].blocking = true → s.tbs.cal.lookAhead ≤ 16 →
    let heading := if 0 < vc then s.pot.pose.heading else (s.pot.pose.heading + 2048) % 4096
    let far (k : Nat) : Int := ((s.tbs.cal.leadDistance + 50 * (k - 1)) * 16 : Nat)
    let x (k : Nat) : Int := s.pot.pose.x + (far k * cosine heading + 8192) / 16384
    let y (k : Nat) : Int := s.pot.pose.y + (far k * sine heading + 8192) / 16384
    let off (k : Nat) : Bool := x k < 0 || 819199 < x k || y k < 0 || 819199 < y k
    let cell (k : Nat) : Cell := { col := (x k).toNat / 800, row := (y k).toNat / 800 }
    let stops (k : Nat) : Prop := off k = true ∨ ∀ cls, classAt s (cell k) = some cls → s.tbs.response[cls].blocking = true
    (∀ k : Fin 16, k.val < s.tbs.cal.lookAhead → stops (k.val + 1) → (∀ j, 1 ≤ j → j ≤ k.val → ¬stops j) →
      (scan vc s).1 = (k.val + 1, s.tbs.braking.limits[k])) ∧
    ((∀ k, 1 ≤ k → k ≤ s.tbs.cal.lookAhead → ¬stops k) → (scan vc s).1 = (0, s.tbs.braking.vclear)) ∧
    (scan vc s).2 = (List.range (if (scan vc s).1.1 = 0 then s.tbs.cal.lookAhead else (scan vc s).1.1)).foldl
      (fun t j => if off (j + 1) then t else (lookup (cell (j + 1)) t).2) s

/-- The travelling case: Vlim is floor(min(brake limit, floor cap, Vmax) / n), and at most the confirm creep while a suspicion is
active. The floor cap is that of the centre cell's class after the scan, or the blind limit when it is unknown; with the pose
invalid, brake limit and floor cap are both the blind limit, k* is 0, and nothing is looked up. A pair whose centre speed exceeds
Vlim is scaled on both wheels by Vlim / |vc|, truncated; the pair sent never has a centre speed above Vlim (R94 to R97, R100). -/
def Obligations.GateLimitsTheCentreSpeed : Prop :=
  ∀ (s : State) (srcL srcR : Int), gateSource s = some (srcL, srcR) →
    let wheel : Int := s.tbs.cal.vWheel
    let vL := max (-wheel) (min wheel srcL)
    let vR := max (-wheel) (min wheel srcR)
    let vc := (vL + vR).tdiv 2
    let n := if s.rct.state = .creep then s.rct.creep else 1
    let out := (gateCompute s).1
    vc ≠ 0 →
      ∃ (brake cap kStar vlim : Nat),
        (s.pot.pose.valid = false →
          brake = s.tbs.cal.blindLimit ∧ cap = s.tbs.cal.blindLimit ∧ kStar = 0 ∧ (gateCompute s).2 = s) ∧
        (s.pot.pose.valid = true → (kStar, brake) = (scan vc s).1 ∧
          cap = match classAt (scan vc s).2 { col := s.pot.pose.x / 800, row := s.pot.pose.y / 800 } with
            | none => s.tbs.cal.blindLimit
            | some cls => s.tbs.response[cls].floorCap) ∧
        (s.pot.pose.valid = true →
          (gateCompute s).2 = (lookup { col := s.pot.pose.x / 800, row := s.pot.pose.y / 800 } (scan vc s).2).2) ∧
        ((∀ x, s.rfx.suspects.get x = none) → vlim = min (min brake cap) s.tbs.cal.vMax / n) ∧
        ((∃ x, s.rfx.suspects.get x ≠ none) →
          vlim = min (min (min brake cap) s.tbs.cal.vMax / n) s.tbs.cal.confirmCreep) ∧
        (vc.natAbs ≤ vlim → out.vL = vL ∧ out.vR = vR) ∧
        (vlim < vc.natAbs → out.vL = (vL * vlim).tdiv vc.natAbs ∧ out.vR = (vR * vlim).tdiv vc.natAbs) ∧
        ((out.vL + out.vR).tdiv 2).natAbs ≤ vlim ∧
        out.result = { vc := vc, vlim := some vlim, kStar := kStar, scaled := decide (out.vL ≠ srcL ∨ out.vR ≠ srcR) }

/-- The brush wish. In the four segment states it is the more restrictive, in the order STOP, LIFT, LOW, RUN, of the current
segment's request, if it has one, and the centre cell's brush action, LIFT when that cell is unknown or the pose invalid. In the
back-off of a jam it is REVERSE, and everywhere else STOP (R99). -/
def Obligations.BrushWishIsTheMostRestrictive : Prop :=
  ∀ s : State,
    let rank (b : BrushState) : Nat := match b with | .stop => 0 | .lift => 1 | .low => 2 | .run => 3 | .reverse => 4
    let wish := (gateCompute s).1.wish
    let wheel : Int := s.tbs.cal.vWheel
    let source : Int × Int := match s.mgt.current with | none => (0, 0) | some c => (c.segment.vL, c.segment.vR)
    let vc := (max (-wheel) (min wheel source.1) + max (-wheel) (min wheel source.2)).tdiv 2
    (s.rct.state = .reflex → (∃ m, s.rfx.phase = .back .jam m) → wish = .reverse) ∧
    (¬SegmentState s.rct.state → (∀ m, s.rfx.phase ≠ .back .jam m) → wish = .stop) ∧
    (SegmentState s.rct.state →
      ∃ centre : BrushState,
        (s.pot.pose.valid = false → centre = .lift) ∧
        (s.pot.pose.valid = true →
          centre = match classAt (if vc = 0 then s else (scan vc s).2)
              { col := s.pot.pose.x / 800, row := s.pot.pose.y / 800 } with
            | none => .lift
            | some cls => s.tbs.response[cls].brush) ∧
        (∀ c b, s.mgt.current = some c → c.segment.brush = some b →
          (wish = b ∨ wish = centre) ∧ rank wish ≤ rank b ∧ rank wish ≤ rank centre) ∧
        ((∀ c, s.mgt.current = some c → c.segment.brush = none) → wish = centre))

/-! ## The window, the marks and the reports -/

/-- A request does nothing when a slot holds its key or six slots are PENDING. Otherwise it takes the lowest-numbered EMPTY slot,
or, with none, the least-recent CLEAN slot whose tile has no cell within two cells of the robot's centre cell; the slot becomes
PENDING from now and most-recent, and a TILE_REQUEST waits. With no such slot WINDOW_FULL is raised with the key and no slot
changes (R40, R43, R44, R45). -/
def Obligations.RequestTakesAnEmptyOrUnpinnedSlot : Prop :=
  ∀ (k : TileKey) (s : State),
    let taken (i : SlotNo) : State := { s with
      twn := { s.twn with slots := s.twn.slots.set i (.pending k s.pot.timeCount), recency := s.twn.recency.erase i ++ [i] }
      pli := { s.pli with requests := s.pli.requests ++ [k] } }
    let free (i : SlotNo) : Prop := ∃ t, s.twn.slot i = .clean t ∧ ¬Near s.pot.pose t.key
    ((∃ i, (s.twn.slot i).key? = some k) ∨ 6 ≤ s.twn.pendingRequests → request k s = s) ∧
    ((∀ i, (s.twn.slot i).key? ≠ some k) → s.twn.pendingRequests < 6 →
      (∀ i, s.twn.slot i = .empty → (∀ j, j < i → s.twn.slot j ≠ .empty) → request k s = taken i) ∧
      ((∀ i, s.twn.slot i ≠ .empty) →
        (∀ before i after, s.twn.recency = before ++ i :: after → free i → (∀ j ∈ before, ¬free j) → request k s = taken i) ∧
        ((∀ i ∈ s.twn.recency, ¬free i) → request k s = raise .windowFull (.key k) s)))

/-- Where the robot was when a sense sample was taken. Among the history entries made at least `age` units before the arrival,
those stamped after it set aside, the newest answers, the later-appended of equals, with stale clear; with none, the oldest entry
answers with stale set; with an empty ring, the pose record does (R27). -/
def Obligations.AgeLookupFindsTheNewestOldEnough : Prop :=
  ∀ (p : PoseTracker) (arrival : Time) (age : Nat),
    let ago (e : HistoryEntry) : Nat := (arrival - e.stamp).toNat
    let passes (e : HistoryEntry) : Prop := ago e < 2 ^ 31 ∧ age ≤ ago e
    (∀ before e after, p.history = before ++ e :: after → passes e →
      (∀ b ∈ before, passes b → ago e ≤ ago b) → (∀ b ∈ after, passes b → ago e < ago b) →
      ageLookup p arrival age = (Base.mk e.x e.y e.heading, false)) ∧
    (∀ first rest, p.history = first :: rest → (∀ e ∈ p.history, ¬passes e) →
      ageLookup p arrival age = (Base.mk first.x first.y first.heading, true)) ∧
    (p.history = [] → ageLookup p arrival age = (Base.mk p.pose.x p.pose.y p.pose.heading, true))

/-- A mark request. With the pose invalid or the learn class NONE it does nothing. Otherwise the point, at the trigger's offset
from the history pose of the sample (or from the pose record for a stall and a jam), held to the level, names a cell. Unknown,
the mark is dropped and counted, with MARK_DROPPED, after a request when no slot holds the tile. Blocking or already of the
class, it is not made. Else the class is written and one unsent record replaces the cell's, or joins fewer than eight, or the
overflow flag is set; a CLEAN slot becomes MARKED, at the end of the marked order and offered to the report queue (R28, R29,
R60 to R68, R72). In a SENT slot a mark that meets the building of a LIST of eight, at the time count of the build and on a
cell that the list does not hold, changes the cell and sets the overflow flag, with no record. That the second row of R72, and
not R64, R65 and R71, holds for that one mark, and that events of one time count come together, is the model's choice
(notes/assumptions/31.md, unsafe). -/
def Obligations.MarkRequestWritesAndRecords : Prop :=
  ∀ (h : Hazard) (age : Nat) (s : State), WindowLaw s →
    let c := s.tbs.cal
    let kind : MarkKind := match h with
      | .cliff _ => .cliff | .drop _ => .drop | .bump _ => .bump | .stall _ => .stall | .jam => .jam
    let half : Int := ((c.trackWidth / 2 : Nat) : Int)
    let offset : Int × Int := match h with
      | .cliff .fl => (c.flForward, c.flLeft) | .cliff .fr => (c.frForward, c.frLeft)
      | .cliff .sl => (c.slForward, c.slLeft) | .cliff .sr => (c.srForward, c.srLeft)
      | .drop .left => (0, half) | .drop .right => (0, -half)
      | .bump .left => (c.leadDistance, c.bumperOffset) | .bump .right => (c.leadDistance, -(c.bumperOffset : Int))
      | .bump .both => (c.leadDistance, 0) | .stall _ => (c.leadDistance, 0) | .jam => (0, 0)
    let base : Base × Bool := match h with
      | .stall _ => (Base.mk s.pot.pose.x s.pot.pose.y s.pot.pose.heading, false)
      | .jam => (Base.mk s.pot.pose.x s.pot.pose.y s.pot.pose.heading, false)
      | _ => ageLookup s.pot s.pot.timeCount age
    let b := base.1
    let x : Int := b.x + (offset.1 * cosine b.heading - offset.2 * sine b.heading + 512) / 1024
    let y : Int := b.y + (offset.1 * sine b.heading + offset.2 * cosine b.heading + 512) / 1024
    let cell : Cell := { col := (max 0 (min 819199 x)).toNat / 800, row := (max 0 (min 819199 y)).toNat / 800 }
    let key : TileKey := { level := s.pot.pose.level, col := cell.col / 16, row := cell.row / 16 }
    let dropped (t : State) : State := raise .markDropped (.mark kind key)
      { t with mru := { s.mru with dropped := min 255 (s.mru.dropped + 1) } }
    (s.pot.pose.valid = false ∨ s.tbs.learn.entry kind = none → requestMark h age s = s) ∧
    ∀ cls, s.pot.pose.valid = true → s.tbs.learn.entry kind = some cls →
      let record : MarkRecord := { cell := cell.index, cls := cls, kind := kind, stale := base.2, sent := false }
      ((∀ i, (s.twn.slot i).key? ≠ some key) → requestMark h age s = dropped (request key s)) ∧
      (∀ i at_, s.twn.slot i = .pending key at_ → requestMark h age s = dropped s) ∧
      ∀ i t, (s.twn.slot i).tile? = some t → t.key = key →
        let touched : TileWindow := { s.twn with recency := s.twn.recency.erase i ++ [i] }
        ((s.tbs.response[t.cells[cell.index]].blocking = true ∨ t.cells[cell.index] = cls) →
          requestMark h age s = { s with twn := touched }) ∧
        (s.tbs.response[t.cells[cell.index]].blocking = false → t.cells[cell.index] ≠ cls →
          let written : Tile := { t with cells := t.cells.set cell.index cls }
          let stored (slot : Slot) : TileWindow := { touched with slots := s.twn.slots.set i slot }
          let updated (m n : Marks) : Prop :=
            ((∃ q ∈ recordsWith false m, q.cell = cell.index) → n = { m with
              records := m.records.map (fun q => if q.sent = false ∧ q.cell = cell.index then record else q) }) ∧
            ((∀ q ∈ recordsWith false m, q.cell ≠ cell.index) → (recordsWith false m).length < 8 →
              n = { m with records := m.records ++ [record] }) ∧
            ((∀ q ∈ recordsWith false m, q.cell ≠ cell.index) → 8 ≤ (recordsWith false m).length →
              n = { m with overflow := true })
          (s.twn.slot i = .clean t →
            requestMark h age s = { s with
              twn := stored (.marked written { records := [record], overflow := false })
              mru := { s.mru with
                markedOrder := s.mru.markedOrder ++ [i], reportQueue := offered key s.mru.reportQueue } }) ∧
          (∀ m, s.twn.slot i = .marked t m →
            ∃ n, updated m n ∧ requestMark h age s = { s with twn := stored (.marked written n) }) ∧
          ∀ m, s.twn.slot i = .sent t m →
            let meets := m.eightSentAt = some s.pot.timeCount ∧ ∀ q ∈ m.records, q.cell ≠ cell.index
            ∃ n, (meets → n = { m with overflow := true }) ∧ (¬meets → updated m n) ∧
              requestMark h age s = { s with twn := stored (.sent written n) })

/-- The REPORT's turn. The frame for the head of the report queue carries the key, the base generation, and the unsent records in
order, or the whole image after an overflow. The slot becomes SENT with every record sent and the overflow flag clear, leaves the
marked order, its key leaves the queue, and the first MARKED slot of the marked order whose key is not queued enters
(R67, R69, R70, R71). After a LIST of eight the slot keeps the time count of the build, for R72 (notes/assumptions/31.md). -/
def Obligations.ReportIsBuiltAtItsTurn : Prop :=
  ∀ (i : SlotNo) (t : Tile) (m : Marks) (rest : List TileKey) (s : State),
    s.pli.events = [] → s.pli.retries = [] → s.pli.answers = [] → s.pli.requests = [] → WindowLaw s → MarkedOrderLaw s →
    s.mru.reportQueue = t.key :: rest → s.twn.slot i = .marked t m →
    let order := s.mru.markedOrder.erase i
    let unqueued (j : SlotNo) : Prop := ∃ u n, s.twn.slot j = .marked u n ∧ u.key ∉ rest
    ∃ queue : List TileKey,
      exec .planTransmitterFree s = .next
        { s with
          twn := { s.twn with
            slots := s.twn.slots.set i
              (.sent t
                { records := m.records.map (fun r => { r with sent := true })
                  overflow := false
                  eightSentAt := if m.overflow = false ∧ (recordsWith false m).length = 8 then some s.pot.timeCount
                                 else none }) }
          mru := { s.mru with markedOrder := order, reportQueue := queue }
          pli := { s.pli with
            leaving := some (.report
              { key := t.key, baseGeneration := t.generation
                body := if m.overflow then .image t.cells else .list (recordsWith false m) }) } } ∧
      (∀ before j after, order = before ++ j :: after → (∀ b ∈ before, ¬unqueued b) →
        ∀ u n, s.twn.slot j = .marked u n → u.key ∉ rest → queue = rest ++ [u.key]) ∧
      ((∀ j ∈ order, ¬unqueued j) → queue = rest)

/-! ## The transmitters and STATUS -/

/-- Each transmitter, as it becomes free, sends the frame that is due, whole. On the Plan Link that is the oldest waiting frame of
the first kind, in the order EVENT, TILE_RETRY, LOAD_ANSWER, TILE_REQUEST, REPORT, STATUS; a frame that begins to wait while the
transmitter is free is chosen likewise, and while another frame leaves none is. On the Drive Link the oldest waiting frame leaves,
and a frame that the DLI comes to send leaves after all that it holds (R157, R171). That the arbiter's choice comes at the end of
a command is the model's reading (notes/assumptions/6.md). -/
def Obligations.TransmittersSendInOrder : Prop :=
  (∀ s : State,
    let sent (f : PlanFrame) (p : PlanLink) : Host.Outcome State Fault Refusal :=
      .next { s with pli := { p with leaving := some f } }
    (∀ f rest, s.pli.events = f :: rest →
      exec .planTransmitterFree s = sent (.event f) { s.pli with events := rest }) ∧
    (s.pli.events = [] → ∀ f rest, s.pli.retries = f :: rest →
      exec .planTransmitterFree s = sent (.retry f) { s.pli with retries := rest }) ∧
    (s.pli.events = [] → s.pli.retries = [] → ∀ f rest, s.pli.answers = f :: rest →
      exec .planTransmitterFree s = sent (.answer f) { s.pli with answers := rest }) ∧
    (s.pli.events = [] → s.pli.retries = [] → s.pli.answers = [] → ∀ k rest, s.pli.requests = k :: rest →
      exec .planTransmitterFree s = sent (.request k) { s.pli with requests := rest }) ∧
    (s.pli.events = [] → s.pli.retries = [] → s.pli.answers = [] → s.pli.requests = [] → s.mru.reportQueue = [] →
      s.pli.statusWaits = false →
      exec .planTransmitterFree s = .next { s with pli := { s.pli with leaving := none } }) ∧
    ((∃ f, s.pli.leaving = some f) → arbitrate s = s) ∧
    (s.pli.leaving = none → exec .planTransmitterFree s = .next (arbitrate s))) ∧
  ∀ s : State,
    exec .driveTransmitterFree s = .next
      { s with dli := { s.dli with leaving := s.dli.waiting.head?, waiting := s.dli.waiting.tail } } ∧
    ∀ f, sendDrive f s = { s with dli := { s.dli with
      leaving := leavingAfter f s.dli.leaving, waiting := waitingAfter f s.dli.leaving s.dli.waiting } }

/-- A STATUS_REQUEST, and the expiry of the status interval, which starts anew at that moment, make one STATUS frame wait. At its
turn the frame shows the state of the part at that moment: run, pose, queues, progress, gate, window, events, counts and drive
(R172, R173). -/
def Obligations.StatusShowsThePartAtItsTurn : Prop :=
  (∀ s : State, s.rct.state ≠ .loading →
    exec .statusRequest s = .next (arbitrate { s with pli := { s.pli with statusWaits := true } })) ∧
  (∀ s : State, DueAt s .statusInterval →
    exec .statusInterval s = .next (arbitrate
      { s with pli := { s.pli with statusWaits := true, statusStart := s.pot.timeCount } })) ∧
  ∀ s : State, s.pli.events = [] → s.pli.retries = [] → s.pli.answers = [] → s.pli.requests = [] →
    s.mru.reportQueue = [] → s.pli.statusWaits = true →
    let slotsIn (p : Slot → Bool) : Nat := (List.finRange 16).countP (fun i => p (s.twn.slot i))
    ∃ f : StatusFrame,
      exec .planTransmitterFree s = .next
        { s with
          evu := if s.evu.clearMode = .onStatus then s.evu.clearAll else s.evu
          pli := { s.pli with statusWaits := false, leaving := some (.status f) } } ∧
      f = { run := s.rct.state, creep := s.rct.creep, pose := s.pot.pose
            segmentFree := 8 - s.mgt.queue.length, modeFree := 3 - s.rct.modeQueue.length, reportDepth := 0
            currentTag := s.mgt.current.bind (fun c => c.segment.tag), completed := s.mgt.completed
            gate := s.mgt.result
            slots := { empty := slotsIn Slot.isEmpty, pending := slotsIn Slot.isPending, clean := slotsIn Slot.isClean
                       marked := slotsIn Slot.isMarked, sent := slotsIn Slot.isSent }
            events := f.events
            planErrors := s.pli.errors, driveErrors := s.dli.errors, senseErrors := s.snp.errors
            marksDropped := s.mru.dropped, unsolicited := s.twn.unsolicited
            brush := s.dli.brushState, reserved := s.dli.reservation.map Reservation.commanded
            contact := s.snp.lastContact } ∧
      (∀ k d, (k, d) ∈ f.events ↔ Flagged s k d) ∧
      (f.events.map (fun e => (eventNumber e.1).val)).Pairwise (· < ·)

/-! ## The laws that every step keeps -/

/-- Every step keeps the tables, the pose, the segments, the mode commands, the history ring and the counts in their ranges: no
value leaves the range that the manual gives it (R6, R8, R9, R10, R12, R14, R19, R26, R50, R66, R79, R80, R84, R108, R113, R166,
R169). -/
def Obligations.StepKeepsValuesInRange : Prop :=
  ∀ s t : State, step s = .next t →
    (TableLaw s → TableLaw t) ∧ (PoseLaw s → PoseLaw t) ∧ (SegmentLaw s → SegmentLaw t) ∧ (ModeLaw s → ModeLaw t) ∧
      (HistoryLaw s → HistoryLaw t) ∧ (CountLaw s → CountLaw t)

/-- Every step keeps the laws of the tile window: one slot for a key, every key on the pose's level, at most six PENDING slots, a
waiting TILE_REQUEST only for a PENDING slot and none twice, and a recency order of exactly the occupied slots (R38, R39, R43,
R45). -/
def Obligations.StepKeepsTheWindowLaws : Prop :=
  ∀ s t : State, step s = .next t → WindowLaw s → RequestLaw s → RecencyLaw s → WindowLaw t ∧ RequestLaw t ∧ RecencyLaw t

/-- Every step keeps the laws of the marks: at most eight unsent marks in a slot, one for a cell, at most eight sent, none sent
while MARKED; a report queue of at most four keys, none twice, each of a MARKED slot; and a marked order of exactly the MARKED
slots (R64, R67, R68, R70). -/
def Obligations.StepKeepsTheMarkLaws : Prop :=
  ∀ s t : State, step s = .next t → WindowLaw s → MarksLaw s → ReportLaw s → MarkedOrderLaw s →
    WindowLaw t ∧ MarksLaw t ∧ ReportLaw t ∧ MarkedOrderLaw t

/-- Every step keeps the phases with their run states, the DAU's items with their phases, the brush record, the uniqueness of the
waiting frames, the Drive Link's transmitter busy while a frame waits for it, and the stillness of LOADING; and LOADING is entered
by POWER_ON alone (R73, R104, R114, R116, R136, R139, R143, R157, R161, R174). -/
def Obligations.StepKeepsThePhaseAndQueueLaws : Prop :=
  ∀ s t : State, step s = .next t →
    (PhaseLaw s → DockLaw s → PhaseLaw t ∧ DockLaw t) ∧ (BrushLaw s → BrushLaw t) ∧ (WaitingLaw s → WaitingLaw t) ∧
      (DriveQueueLaw s → DriveQueueLaw t) ∧ (LoadingLaw s → LoadingLaw t) ∧
      (t.rct.state = .loading → s.rct.state = .loading ∨ ∃ rest, s.pending = .powerOn :: rest)

/-- A slot in MARKED or SENT leaves that pair of states, or changes its key, only by power-on, Restart, and for a SENT slot a TILE
of its key with another generation or a TILE_DROP of its key; no request, eviction, timeout or level change takes it (R37). -/
def Obligations.MarkedTilesAreKept : Prop :=
  ∀ (i : SlotNo) (held : Tile) (m : Marks) (s t : State), step s = .next t →
    (∀ rest, s.pending ≠ .powerOn :: rest) → (∀ rest, s.pending ≠ .restart :: rest) →
    (s.twn.slot i = .marked held m ∨
      (s.twn.slot i = .sent held m ∧ (∀ rest, s.pending ≠ .tileDrop held.key :: rest) ∧
        ∀ generation contents rest, generation ≠ held.generation →
          s.pending ≠ .tile held.key generation contents :: rest)) →
    ∃ kept n, (t.twn.slot i = .marked kept n ∨ t.twn.slot i = .sent kept n) ∧ kept.key = held.key ∧
      kept.generation = held.generation

/-- The state right after power-on meets every law: of the tables (R6, R8, R9, R10, R11, R12, R14), the pose (R19), the segments
(R79, R80), the mode commands (R108, R113), the history (R26), the counts (R50, R66, R84, R166, R169), the window (R38, R39, R43,
R45), the marks (R64, R67, R68, R70), the phases (R114, R116, R136, R143, R156), the DAU's items (R139, R143), the brush record
(R161), the waiting frames (R73, R174), the Drive Link's transmitter (R157) and LOADING (R104, R108). TableLaw and BrushLaw read
there the calibration and the brush record as they stand during LOADING, which are the model's choice (notes/assumptions/8.md,
unsafe). -/
def Obligations.ResetMeetsEveryLaw : Prop :=
  TableLaw State.reset ∧ PoseLaw State.reset ∧ SegmentLaw State.reset ∧ ModeLaw State.reset ∧ HistoryLaw State.reset ∧
    CountLaw State.reset ∧ WindowLaw State.reset ∧ RequestLaw State.reset ∧ RecencyLaw State.reset ∧ MarksLaw State.reset ∧
    ReportLaw State.reset ∧ MarkedOrderLaw State.reset ∧ PhaseLaw State.reset ∧ DockLaw State.reset ∧ BrushLaw State.reset ∧
    WaitingLaw State.reset ∧ DriveQueueLaw State.reset ∧ LoadingLaw State.reset

/-! ## The lines' bytes -/

/-- Encode and decode agree, for every frame of the three lines with every operand that a frame can carry: the frame that carries
a command decodes to that command, and its bytes, taken one after another by a hunting receiver, put exactly that command at the
end of the queue and leave the receiver hunting (R168, R179, R180, R181). That the byte which ends a frame puts its command at the
end of the queue, outside step, is the model's choice (notes/assumptions/22.md). -/
def Obligations.FramesDecodeToTheirCommands : Prop :=
  ∀ (i : Instr) (kind : Byte) (body : List Byte) (s : State), i.wellFormed = true → encodeBody i = some (kind, body) →
    (isPlanFrame i = true →
      decodePlan (frameBytes kind body) = i ∧
        (s.pli.receiver = .hunting →
          (envelope kind body).foldl State.takePlanByte s = { s with pending := s.pending ++ [i] })) ∧
    (((∃ tL tR l r, i = .odometryReply tL tR l r) ∨ ∃ b jam, i = .brushStatus b jam) →
      decodeDrive (frameBytes kind body) = i ∧
        (s.dli.receiver = .hunting →
          (envelope kind body).foldl State.takeDriveByte s = { s with pending := s.pending ++ [i] })) ∧
    ((∃ f, i = .senseFrame f) →
      decodeSense (frameBytes kind body) = i ∧
        (s.snp.receiver = .hunting →
          (envelope kind body).foldl State.takeSenseByte s = { s with pending := s.pending ++ [i] }))
end

