-- ==== Sys2Proof/Laws/State.lean ====
section
/-! SUPPORT. What each named update of the state leaves alone: one lemma for each block that it does not write. -/

namespace Sys2Proof.Machine

/-! ## `raise` -/

@[simp] theorem raise_tbs (k : EventKind) (d : Detail) (s : State) : (raise k d s).tbs = s.tbs := rfl
@[simp] theorem raise_pot (k : EventKind) (d : Detail) (s : State) : (raise k d s).pot = s.pot := rfl
@[simp] theorem raise_twn (k : EventKind) (d : Detail) (s : State) : (raise k d s).twn = s.twn := rfl
@[simp] theorem raise_mru (k : EventKind) (d : Detail) (s : State) : (raise k d s).mru = s.mru := rfl
@[simp] theorem raise_mgt (k : EventKind) (d : Detail) (s : State) : (raise k d s).mgt = s.mgt := rfl
@[simp] theorem raise_rct (k : EventKind) (d : Detail) (s : State) : (raise k d s).rct = s.rct := rfl
@[simp] theorem raise_rfx (k : EventKind) (d : Detail) (s : State) : (raise k d s).rfx = s.rfx := rfl
@[simp] theorem raise_dau (k : EventKind) (d : Detail) (s : State) : (raise k d s).dau = s.dau := rfl
@[simp] theorem raise_dli (k : EventKind) (d : Detail) (s : State) : (raise k d s).dli = s.dli := rfl
@[simp] theorem raise_snp (k : EventKind) (d : Detail) (s : State) : (raise k d s).snp = s.snp := rfl
@[simp] theorem raise_choices (k : EventKind) (d : Detail) (s : State) : (raise k d s).choices = s.choices := rfl
@[simp] theorem raise_pending (k : EventKind) (d : Detail) (s : State) : (raise k d s).pending = s.pending := rfl

/-! ## `withPose` -/

@[simp] theorem withPose_tbs (p : Pose) (s : State) : (withPose p s).tbs = s.tbs := rfl
@[simp] theorem withPose_twn (p : Pose) (s : State) : (withPose p s).twn = s.twn := rfl
@[simp] theorem withPose_mru (p : Pose) (s : State) : (withPose p s).mru = s.mru := rfl
@[simp] theorem withPose_mgt (p : Pose) (s : State) : (withPose p s).mgt = s.mgt := rfl
@[simp] theorem withPose_rct (p : Pose) (s : State) : (withPose p s).rct = s.rct := rfl
@[simp] theorem withPose_rfx (p : Pose) (s : State) : (withPose p s).rfx = s.rfx := rfl
@[simp] theorem withPose_dau (p : Pose) (s : State) : (withPose p s).dau = s.dau := rfl
@[simp] theorem withPose_dli (p : Pose) (s : State) : (withPose p s).dli = s.dli := rfl
@[simp] theorem withPose_snp (p : Pose) (s : State) : (withPose p s).snp = s.snp := rfl
@[simp] theorem withPose_evu (p : Pose) (s : State) : (withPose p s).evu = s.evu := rfl
@[simp] theorem withPose_pli (p : Pose) (s : State) : (withPose p s).pli = s.pli := rfl
@[simp] theorem withPose_choices (p : Pose) (s : State) : (withPose p s).choices = s.choices := rfl
@[simp] theorem withPose_pending (p : Pose) (s : State) : (withPose p s).pending = s.pending := rfl

/-! ## `emptyHistory` -/

@[simp] theorem emptyHistory_tbs (s : State) : (emptyHistory s).tbs = s.tbs := rfl
@[simp] theorem emptyHistory_twn (s : State) : (emptyHistory s).twn = s.twn := rfl
@[simp] theorem emptyHistory_mru (s : State) : (emptyHistory s).mru = s.mru := rfl
@[simp] theorem emptyHistory_mgt (s : State) : (emptyHistory s).mgt = s.mgt := rfl
@[simp] theorem emptyHistory_rct (s : State) : (emptyHistory s).rct = s.rct := rfl
@[simp] theorem emptyHistory_rfx (s : State) : (emptyHistory s).rfx = s.rfx := rfl
@[simp] theorem emptyHistory_dau (s : State) : (emptyHistory s).dau = s.dau := rfl
@[simp] theorem emptyHistory_dli (s : State) : (emptyHistory s).dli = s.dli := rfl
@[simp] theorem emptyHistory_snp (s : State) : (emptyHistory s).snp = s.snp := rfl
@[simp] theorem emptyHistory_evu (s : State) : (emptyHistory s).evu = s.evu := rfl
@[simp] theorem emptyHistory_pli (s : State) : (emptyHistory s).pli = s.pli := rfl
@[simp] theorem emptyHistory_choices (s : State) : (emptyHistory s).choices = s.choices := rfl
@[simp] theorem emptyHistory_pending (s : State) : (emptyHistory s).pending = s.pending := rfl

/-! ## `appendHistory` -/

@[simp] theorem appendHistory_tbs (s : State) : (appendHistory s).tbs = s.tbs := rfl
@[simp] theorem appendHistory_twn (s : State) : (appendHistory s).twn = s.twn := rfl
@[simp] theorem appendHistory_mru (s : State) : (appendHistory s).mru = s.mru := rfl
@[simp] theorem appendHistory_mgt (s : State) : (appendHistory s).mgt = s.mgt := rfl
@[simp] theorem appendHistory_rct (s : State) : (appendHistory s).rct = s.rct := rfl
@[simp] theorem appendHistory_rfx (s : State) : (appendHistory s).rfx = s.rfx := rfl
@[simp] theorem appendHistory_dau (s : State) : (appendHistory s).dau = s.dau := rfl
@[simp] theorem appendHistory_dli (s : State) : (appendHistory s).dli = s.dli := rfl
@[simp] theorem appendHistory_snp (s : State) : (appendHistory s).snp = s.snp := rfl
@[simp] theorem appendHistory_evu (s : State) : (appendHistory s).evu = s.evu := rfl
@[simp] theorem appendHistory_pli (s : State) : (appendHistory s).pli = s.pli := rfl
@[simp] theorem appendHistory_choices (s : State) : (appendHistory s).choices = s.choices := rfl
@[simp] theorem appendHistory_pending (s : State) : (appendHistory s).pending = s.pending := rfl

/-! ## `turnHeading` -/

@[simp] theorem turnHeading_tbs (yaw : Int) (s : State) : (turnHeading yaw s).tbs = s.tbs := rfl
@[simp] theorem turnHeading_twn (yaw : Int) (s : State) : (turnHeading yaw s).twn = s.twn := rfl
@[simp] theorem turnHeading_mru (yaw : Int) (s : State) : (turnHeading yaw s).mru = s.mru := rfl
@[simp] theorem turnHeading_mgt (yaw : Int) (s : State) : (turnHeading yaw s).mgt = s.mgt := rfl
@[simp] theorem turnHeading_rct (yaw : Int) (s : State) : (turnHeading yaw s).rct = s.rct := rfl
@[simp] theorem turnHeading_rfx (yaw : Int) (s : State) : (turnHeading yaw s).rfx = s.rfx := rfl
@[simp] theorem turnHeading_dau (yaw : Int) (s : State) : (turnHeading yaw s).dau = s.dau := rfl
@[simp] theorem turnHeading_dli (yaw : Int) (s : State) : (turnHeading yaw s).dli = s.dli := rfl
@[simp] theorem turnHeading_snp (yaw : Int) (s : State) : (turnHeading yaw s).snp = s.snp := rfl
@[simp] theorem turnHeading_evu (yaw : Int) (s : State) : (turnHeading yaw s).evu = s.evu := rfl
@[simp] theorem turnHeading_pli (yaw : Int) (s : State) : (turnHeading yaw s).pli = s.pli := rfl
@[simp] theorem turnHeading_choices (yaw : Int) (s : State) : (turnHeading yaw s).choices = s.choices := rfl
@[simp] theorem turnHeading_pending (yaw : Int) (s : State) : (turnHeading yaw s).pending = s.pending := rfl

/-! ## `withDock` -/

@[simp] theorem withDock_tbs (d : DockUnit) (s : State) : (withDock d s).tbs = s.tbs := rfl
@[simp] theorem withDock_pot (d : DockUnit) (s : State) : (withDock d s).pot = s.pot := rfl
@[simp] theorem withDock_twn (d : DockUnit) (s : State) : (withDock d s).twn = s.twn := rfl
@[simp] theorem withDock_mru (d : DockUnit) (s : State) : (withDock d s).mru = s.mru := rfl
@[simp] theorem withDock_mgt (d : DockUnit) (s : State) : (withDock d s).mgt = s.mgt := rfl
@[simp] theorem withDock_rct (d : DockUnit) (s : State) : (withDock d s).rct = s.rct := rfl
@[simp] theorem withDock_rfx (d : DockUnit) (s : State) : (withDock d s).rfx = s.rfx := rfl
@[simp] theorem withDock_dli (d : DockUnit) (s : State) : (withDock d s).dli = s.dli := rfl
@[simp] theorem withDock_snp (d : DockUnit) (s : State) : (withDock d s).snp = s.snp := rfl
@[simp] theorem withDock_evu (d : DockUnit) (s : State) : (withDock d s).evu = s.evu := rfl
@[simp] theorem withDock_pli (d : DockUnit) (s : State) : (withDock d s).pli = s.pli := rfl
@[simp] theorem withDock_choices (d : DockUnit) (s : State) : (withDock d s).choices = s.choices := rfl
@[simp] theorem withDock_pending (d : DockUnit) (s : State) : (withDock d s).pending = s.pending := rfl

/-! ## `withPhase` -/

@[simp] theorem withPhase_tbs (p : ReflexPhase) (s : State) : (withPhase p s).tbs = s.tbs := rfl
@[simp] theorem withPhase_pot (p : ReflexPhase) (s : State) : (withPhase p s).pot = s.pot := rfl
@[simp] theorem withPhase_twn (p : ReflexPhase) (s : State) : (withPhase p s).twn = s.twn := rfl
@[simp] theorem withPhase_mru (p : ReflexPhase) (s : State) : (withPhase p s).mru = s.mru := rfl
@[simp] theorem withPhase_mgt (p : ReflexPhase) (s : State) : (withPhase p s).mgt = s.mgt := rfl
@[simp] theorem withPhase_rct (p : ReflexPhase) (s : State) : (withPhase p s).rct = s.rct := rfl
@[simp] theorem withPhase_dau (p : ReflexPhase) (s : State) : (withPhase p s).dau = s.dau := rfl
@[simp] theorem withPhase_dli (p : ReflexPhase) (s : State) : (withPhase p s).dli = s.dli := rfl
@[simp] theorem withPhase_snp (p : ReflexPhase) (s : State) : (withPhase p s).snp = s.snp := rfl
@[simp] theorem withPhase_evu (p : ReflexPhase) (s : State) : (withPhase p s).evu = s.evu := rfl
@[simp] theorem withPhase_pli (p : ReflexPhase) (s : State) : (withPhase p s).pli = s.pli := rfl
@[simp] theorem withPhase_choices (p : ReflexPhase) (s : State) : (withPhase p s).choices = s.choices := rfl
@[simp] theorem withPhase_pending (p : ReflexPhase) (s : State) : (withPhase p s).pending = s.pending := rfl

/-! ## `withArmed` -/

@[simp] theorem withArmed_tbs (a : Armed) (s : State) : (withArmed a s).tbs = s.tbs := rfl
@[simp] theorem withArmed_pot (a : Armed) (s : State) : (withArmed a s).pot = s.pot := rfl
@[simp] theorem withArmed_twn (a : Armed) (s : State) : (withArmed a s).twn = s.twn := rfl
@[simp] theorem withArmed_mru (a : Armed) (s : State) : (withArmed a s).mru = s.mru := rfl
@[simp] theorem withArmed_mgt (a : Armed) (s : State) : (withArmed a s).mgt = s.mgt := rfl
@[simp] theorem withArmed_rct (a : Armed) (s : State) : (withArmed a s).rct = s.rct := rfl
@[simp] theorem withArmed_dau (a : Armed) (s : State) : (withArmed a s).dau = s.dau := rfl
@[simp] theorem withArmed_dli (a : Armed) (s : State) : (withArmed a s).dli = s.dli := rfl
@[simp] theorem withArmed_snp (a : Armed) (s : State) : (withArmed a s).snp = s.snp := rfl
@[simp] theorem withArmed_evu (a : Armed) (s : State) : (withArmed a s).evu = s.evu := rfl
@[simp] theorem withArmed_pli (a : Armed) (s : State) : (withArmed a s).pli = s.pli := rfl
@[simp] theorem withArmed_choices (a : Armed) (s : State) : (withArmed a s).choices = s.choices := rfl
@[simp] theorem withArmed_pending (a : Armed) (s : State) : (withArmed a s).pending = s.pending := rfl

/-! ## `withSuspect` -/

@[simp] theorem withSuspect_tbs (x : CliffSensor) (m : Option Measure) (s : State) : (withSuspect x m s).tbs = s.tbs := rfl
@[simp] theorem withSuspect_pot (x : CliffSensor) (m : Option Measure) (s : State) : (withSuspect x m s).pot = s.pot := rfl
@[simp] theorem withSuspect_twn (x : CliffSensor) (m : Option Measure) (s : State) : (withSuspect x m s).twn = s.twn := rfl
@[simp] theorem withSuspect_mru (x : CliffSensor) (m : Option Measure) (s : State) : (withSuspect x m s).mru = s.mru := rfl
@[simp] theorem withSuspect_mgt (x : CliffSensor) (m : Option Measure) (s : State) : (withSuspect x m s).mgt = s.mgt := rfl
@[simp] theorem withSuspect_rct (x : CliffSensor) (m : Option Measure) (s : State) : (withSuspect x m s).rct = s.rct := rfl
@[simp] theorem withSuspect_dau (x : CliffSensor) (m : Option Measure) (s : State) : (withSuspect x m s).dau = s.dau := rfl
@[simp] theorem withSuspect_dli (x : CliffSensor) (m : Option Measure) (s : State) : (withSuspect x m s).dli = s.dli := rfl
@[simp] theorem withSuspect_snp (x : CliffSensor) (m : Option Measure) (s : State) : (withSuspect x m s).snp = s.snp := rfl
@[simp] theorem withSuspect_evu (x : CliffSensor) (m : Option Measure) (s : State) : (withSuspect x m s).evu = s.evu := rfl
@[simp] theorem withSuspect_pli (x : CliffSensor) (m : Option Measure) (s : State) : (withSuspect x m s).pli = s.pli := rfl
@[simp] theorem withSuspect_choices (x : CliffSensor) (m : Option Measure) (s : State) : (withSuspect x m s).choices = s.choices := rfl
@[simp] theorem withSuspect_pending (x : CliffSensor) (m : Option Measure) (s : State) : (withSuspect x m s).pending = s.pending := rfl

/-! ## `withCliffArmed` -/

@[simp] theorem withCliffArmed_tbs (x : CliffSensor) (b : Bool) (s : State) : (withCliffArmed x b s).tbs = s.tbs := rfl
@[simp] theorem withCliffArmed_pot (x : CliffSensor) (b : Bool) (s : State) : (withCliffArmed x b s).pot = s.pot := rfl
@[simp] theorem withCliffArmed_twn (x : CliffSensor) (b : Bool) (s : State) : (withCliffArmed x b s).twn = s.twn := rfl
@[simp] theorem withCliffArmed_mru (x : CliffSensor) (b : Bool) (s : State) : (withCliffArmed x b s).mru = s.mru := rfl
@[simp] theorem withCliffArmed_mgt (x : CliffSensor) (b : Bool) (s : State) : (withCliffArmed x b s).mgt = s.mgt := rfl
@[simp] theorem withCliffArmed_rct (x : CliffSensor) (b : Bool) (s : State) : (withCliffArmed x b s).rct = s.rct := rfl
@[simp] theorem withCliffArmed_dau (x : CliffSensor) (b : Bool) (s : State) : (withCliffArmed x b s).dau = s.dau := rfl
@[simp] theorem withCliffArmed_dli (x : CliffSensor) (b : Bool) (s : State) : (withCliffArmed x b s).dli = s.dli := rfl
@[simp] theorem withCliffArmed_snp (x : CliffSensor) (b : Bool) (s : State) : (withCliffArmed x b s).snp = s.snp := rfl
@[simp] theorem withCliffArmed_evu (x : CliffSensor) (b : Bool) (s : State) : (withCliffArmed x b s).evu = s.evu := rfl
@[simp] theorem withCliffArmed_pli (x : CliffSensor) (b : Bool) (s : State) : (withCliffArmed x b s).pli = s.pli := rfl
@[simp] theorem withCliffArmed_choices (x : CliffSensor) (b : Bool) (s : State) : (withCliffArmed x b s).choices = s.choices := rfl
@[simp] theorem withCliffArmed_pending (x : CliffSensor) (b : Bool) (s : State) : (withCliffArmed x b s).pending = s.pending := rfl

/-! ## `suspectTravel` -/

@[simp] theorem suspectTravel_tbs (n : Nat) (s : State) : (suspectTravel n s).tbs = s.tbs := rfl
@[simp] theorem suspectTravel_pot (n : Nat) (s : State) : (suspectTravel n s).pot = s.pot := rfl
@[simp] theorem suspectTravel_twn (n : Nat) (s : State) : (suspectTravel n s).twn = s.twn := rfl
@[simp] theorem suspectTravel_mru (n : Nat) (s : State) : (suspectTravel n s).mru = s.mru := rfl
@[simp] theorem suspectTravel_mgt (n : Nat) (s : State) : (suspectTravel n s).mgt = s.mgt := rfl
@[simp] theorem suspectTravel_rct (n : Nat) (s : State) : (suspectTravel n s).rct = s.rct := rfl
@[simp] theorem suspectTravel_dau (n : Nat) (s : State) : (suspectTravel n s).dau = s.dau := rfl
@[simp] theorem suspectTravel_dli (n : Nat) (s : State) : (suspectTravel n s).dli = s.dli := rfl
@[simp] theorem suspectTravel_snp (n : Nat) (s : State) : (suspectTravel n s).snp = s.snp := rfl
@[simp] theorem suspectTravel_evu (n : Nat) (s : State) : (suspectTravel n s).evu = s.evu := rfl
@[simp] theorem suspectTravel_pli (n : Nat) (s : State) : (suspectTravel n s).pli = s.pli := rfl
@[simp] theorem suspectTravel_choices (n : Nat) (s : State) : (suspectTravel n s).choices = s.choices := rfl
@[simp] theorem suspectTravel_pending (n : Nat) (s : State) : (suspectTravel n s).pending = s.pending := rfl

/-! ## `rearmSense` -/

@[simp] theorem rearmSense_tbs (f : SenseFrame) (s : State) : (rearmSense f s).tbs = s.tbs := rfl
@[simp] theorem rearmSense_pot (f : SenseFrame) (s : State) : (rearmSense f s).pot = s.pot := rfl
@[simp] theorem rearmSense_twn (f : SenseFrame) (s : State) : (rearmSense f s).twn = s.twn := rfl
@[simp] theorem rearmSense_mru (f : SenseFrame) (s : State) : (rearmSense f s).mru = s.mru := rfl
@[simp] theorem rearmSense_mgt (f : SenseFrame) (s : State) : (rearmSense f s).mgt = s.mgt := rfl
@[simp] theorem rearmSense_rct (f : SenseFrame) (s : State) : (rearmSense f s).rct = s.rct := rfl
@[simp] theorem rearmSense_dau (f : SenseFrame) (s : State) : (rearmSense f s).dau = s.dau := rfl
@[simp] theorem rearmSense_dli (f : SenseFrame) (s : State) : (rearmSense f s).dli = s.dli := rfl
@[simp] theorem rearmSense_snp (f : SenseFrame) (s : State) : (rearmSense f s).snp = s.snp := rfl
@[simp] theorem rearmSense_evu (f : SenseFrame) (s : State) : (rearmSense f s).evu = s.evu := rfl
@[simp] theorem rearmSense_pli (f : SenseFrame) (s : State) : (rearmSense f s).pli = s.pli := rfl
@[simp] theorem rearmSense_choices (f : SenseFrame) (s : State) : (rearmSense f s).choices = s.choices := rfl
@[simp] theorem rearmSense_pending (f : SenseFrame) (s : State) : (rearmSense f s).pending = s.pending := rfl

/-! ## `changeRun` -/

@[simp] theorem changeRun_tbs (r : RunState) (s : State) : (changeRun r s).tbs = s.tbs := rfl
@[simp] theorem changeRun_pot (r : RunState) (s : State) : (changeRun r s).pot = s.pot := rfl
@[simp] theorem changeRun_twn (r : RunState) (s : State) : (changeRun r s).twn = s.twn := rfl
@[simp] theorem changeRun_mru (r : RunState) (s : State) : (changeRun r s).mru = s.mru := rfl
@[simp] theorem changeRun_mgt (r : RunState) (s : State) : (changeRun r s).mgt = s.mgt := rfl
@[simp] theorem changeRun_dli (r : RunState) (s : State) : (changeRun r s).dli = s.dli := rfl
@[simp] theorem changeRun_snp (r : RunState) (s : State) : (changeRun r s).snp = s.snp := rfl
@[simp] theorem changeRun_evu (r : RunState) (s : State) : (changeRun r s).evu = s.evu := rfl
@[simp] theorem changeRun_pli (r : RunState) (s : State) : (changeRun r s).pli = s.pli := rfl
@[simp] theorem changeRun_choices (r : RunState) (s : State) : (changeRun r s).choices = s.choices := rfl
@[simp] theorem changeRun_pending (r : RunState) (s : State) : (changeRun r s).pending = s.pending := rfl

/-! ## `discardSegments` -/

@[simp] theorem discardSegments_tbs (s : State) : (discardSegments s).tbs = s.tbs := rfl
@[simp] theorem discardSegments_pot (s : State) : (discardSegments s).pot = s.pot := rfl
@[simp] theorem discardSegments_twn (s : State) : (discardSegments s).twn = s.twn := rfl
@[simp] theorem discardSegments_mru (s : State) : (discardSegments s).mru = s.mru := rfl
@[simp] theorem discardSegments_rct (s : State) : (discardSegments s).rct = s.rct := rfl
@[simp] theorem discardSegments_rfx (s : State) : (discardSegments s).rfx = s.rfx := rfl
@[simp] theorem discardSegments_dau (s : State) : (discardSegments s).dau = s.dau := rfl
@[simp] theorem discardSegments_dli (s : State) : (discardSegments s).dli = s.dli := rfl
@[simp] theorem discardSegments_snp (s : State) : (discardSegments s).snp = s.snp := rfl
@[simp] theorem discardSegments_evu (s : State) : (discardSegments s).evu = s.evu := rfl
@[simp] theorem discardSegments_pli (s : State) : (discardSegments s).pli = s.pli := rfl
@[simp] theorem discardSegments_choices (s : State) : (discardSegments s).choices = s.choices := rfl
@[simp] theorem discardSegments_pending (s : State) : (discardSegments s).pending = s.pending := rfl

/-! ## `enterDiscarding` -/

@[simp] theorem enterDiscarding_tbs (r : RunState) (s : State) : (enterDiscarding r s).tbs = s.tbs := rfl
@[simp] theorem enterDiscarding_pot (r : RunState) (s : State) : (enterDiscarding r s).pot = s.pot := rfl
@[simp] theorem enterDiscarding_twn (r : RunState) (s : State) : (enterDiscarding r s).twn = s.twn := rfl
@[simp] theorem enterDiscarding_mru (r : RunState) (s : State) : (enterDiscarding r s).mru = s.mru := rfl
@[simp] theorem enterDiscarding_dli (r : RunState) (s : State) : (enterDiscarding r s).dli = s.dli := rfl
@[simp] theorem enterDiscarding_snp (r : RunState) (s : State) : (enterDiscarding r s).snp = s.snp := rfl
@[simp] theorem enterDiscarding_evu (r : RunState) (s : State) : (enterDiscarding r s).evu = s.evu := rfl
@[simp] theorem enterDiscarding_pli (r : RunState) (s : State) : (enterDiscarding r s).pli = s.pli := rfl
@[simp] theorem enterDiscarding_choices (r : RunState) (s : State) : (enterDiscarding r s).choices = s.choices := rfl
@[simp] theorem enterDiscarding_pending (r : RunState) (s : State) : (enterDiscarding r s).pending = s.pending := rfl

/-! ## `sendDrive` -/

@[simp] theorem sendDrive_tbs (f : DriveFrame) (s : State) : (sendDrive f s).tbs = s.tbs := rfl
@[simp] theorem sendDrive_pot (f : DriveFrame) (s : State) : (sendDrive f s).pot = s.pot := rfl
@[simp] theorem sendDrive_twn (f : DriveFrame) (s : State) : (sendDrive f s).twn = s.twn := rfl
@[simp] theorem sendDrive_mru (f : DriveFrame) (s : State) : (sendDrive f s).mru = s.mru := rfl
@[simp] theorem sendDrive_mgt (f : DriveFrame) (s : State) : (sendDrive f s).mgt = s.mgt := rfl
@[simp] theorem sendDrive_rct (f : DriveFrame) (s : State) : (sendDrive f s).rct = s.rct := rfl
@[simp] theorem sendDrive_rfx (f : DriveFrame) (s : State) : (sendDrive f s).rfx = s.rfx := rfl
@[simp] theorem sendDrive_dau (f : DriveFrame) (s : State) : (sendDrive f s).dau = s.dau := rfl
@[simp] theorem sendDrive_snp (f : DriveFrame) (s : State) : (sendDrive f s).snp = s.snp := rfl
@[simp] theorem sendDrive_evu (f : DriveFrame) (s : State) : (sendDrive f s).evu = s.evu := rfl
@[simp] theorem sendDrive_pli (f : DriveFrame) (s : State) : (sendDrive f s).pli = s.pli := rfl
@[simp] theorem sendDrive_choices (f : DriveFrame) (s : State) : (sendDrive f s).choices = s.choices := rfl
@[simp] theorem sendDrive_pending (f : DriveFrame) (s : State) : (sendDrive f s).pending = s.pending := rfl

/-! ## `sendSetpoint` -/

@[simp] theorem sendSetpoint_tbs (vL vR : Int) (s : State) : (sendSetpoint vL vR s).tbs = s.tbs := rfl
@[simp] theorem sendSetpoint_pot (vL vR : Int) (s : State) : (sendSetpoint vL vR s).pot = s.pot := rfl
@[simp] theorem sendSetpoint_twn (vL vR : Int) (s : State) : (sendSetpoint vL vR s).twn = s.twn := rfl
@[simp] theorem sendSetpoint_mru (vL vR : Int) (s : State) : (sendSetpoint vL vR s).mru = s.mru := rfl
@[simp] theorem sendSetpoint_mgt (vL vR : Int) (s : State) : (sendSetpoint vL vR s).mgt = s.mgt := rfl
@[simp] theorem sendSetpoint_rct (vL vR : Int) (s : State) : (sendSetpoint vL vR s).rct = s.rct := rfl
@[simp] theorem sendSetpoint_rfx (vL vR : Int) (s : State) : (sendSetpoint vL vR s).rfx = s.rfx := rfl
@[simp] theorem sendSetpoint_dau (vL vR : Int) (s : State) : (sendSetpoint vL vR s).dau = s.dau := rfl
@[simp] theorem sendSetpoint_snp (vL vR : Int) (s : State) : (sendSetpoint vL vR s).snp = s.snp := rfl
@[simp] theorem sendSetpoint_evu (vL vR : Int) (s : State) : (sendSetpoint vL vR s).evu = s.evu := rfl
@[simp] theorem sendSetpoint_pli (vL vR : Int) (s : State) : (sendSetpoint vL vR s).pli = s.pli := rfl
@[simp] theorem sendSetpoint_choices (vL vR : Int) (s : State) : (sendSetpoint vL vR s).choices = s.choices := rfl
@[simp] theorem sendSetpoint_pending (vL vR : Int) (s : State) : (sendSetpoint vL vR s).pending = s.pending := rfl

/-! ## `sendZero` -/

@[simp] theorem sendZero_tbs (s : State) : (sendZero s).tbs = s.tbs := rfl
@[simp] theorem sendZero_pot (s : State) : (sendZero s).pot = s.pot := rfl
@[simp] theorem sendZero_twn (s : State) : (sendZero s).twn = s.twn := rfl
@[simp] theorem sendZero_mru (s : State) : (sendZero s).mru = s.mru := rfl
@[simp] theorem sendZero_mgt (s : State) : (sendZero s).mgt = s.mgt := rfl
@[simp] theorem sendZero_rct (s : State) : (sendZero s).rct = s.rct := rfl
@[simp] theorem sendZero_rfx (s : State) : (sendZero s).rfx = s.rfx := rfl
@[simp] theorem sendZero_dau (s : State) : (sendZero s).dau = s.dau := rfl
@[simp] theorem sendZero_snp (s : State) : (sendZero s).snp = s.snp := rfl
@[simp] theorem sendZero_evu (s : State) : (sendZero s).evu = s.evu := rfl
@[simp] theorem sendZero_pli (s : State) : (sendZero s).pli = s.pli := rfl
@[simp] theorem sendZero_choices (s : State) : (sendZero s).choices = s.choices := rfl
@[simp] theorem sendZero_pending (s : State) : (sendZero s).pending = s.pending := rfl

/-! ## `sendBrushCommand` -/

@[simp] theorem sendBrushCommand_tbs (b : BrushState) (s : State) : (sendBrushCommand b s).tbs = s.tbs := rfl
@[simp] theorem sendBrushCommand_pot (b : BrushState) (s : State) : (sendBrushCommand b s).pot = s.pot := rfl
@[simp] theorem sendBrushCommand_twn (b : BrushState) (s : State) : (sendBrushCommand b s).twn = s.twn := rfl
@[simp] theorem sendBrushCommand_mru (b : BrushState) (s : State) : (sendBrushCommand b s).mru = s.mru := rfl
@[simp] theorem sendBrushCommand_mgt (b : BrushState) (s : State) : (sendBrushCommand b s).mgt = s.mgt := rfl
@[simp] theorem sendBrushCommand_rct (b : BrushState) (s : State) : (sendBrushCommand b s).rct = s.rct := rfl
@[simp] theorem sendBrushCommand_rfx (b : BrushState) (s : State) : (sendBrushCommand b s).rfx = s.rfx := rfl
@[simp] theorem sendBrushCommand_dau (b : BrushState) (s : State) : (sendBrushCommand b s).dau = s.dau := rfl
@[simp] theorem sendBrushCommand_snp (b : BrushState) (s : State) : (sendBrushCommand b s).snp = s.snp := rfl
@[simp] theorem sendBrushCommand_evu (b : BrushState) (s : State) : (sendBrushCommand b s).evu = s.evu := rfl
@[simp] theorem sendBrushCommand_pli (b : BrushState) (s : State) : (sendBrushCommand b s).pli = s.pli := rfl
@[simp] theorem sendBrushCommand_choices (b : BrushState) (s : State) : (sendBrushCommand b s).choices = s.choices := rfl
@[simp] theorem sendBrushCommand_pending (b : BrushState) (s : State) : (sendBrushCommand b s).pending = s.pending := rfl

/-! ## `releaseBrush` -/

@[simp] theorem releaseBrush_tbs (s : State) : (releaseBrush s).tbs = s.tbs := rfl
@[simp] theorem releaseBrush_pot (s : State) : (releaseBrush s).pot = s.pot := rfl
@[simp] theorem releaseBrush_twn (s : State) : (releaseBrush s).twn = s.twn := rfl
@[simp] theorem releaseBrush_mru (s : State) : (releaseBrush s).mru = s.mru := rfl
@[simp] theorem releaseBrush_mgt (s : State) : (releaseBrush s).mgt = s.mgt := rfl
@[simp] theorem releaseBrush_rct (s : State) : (releaseBrush s).rct = s.rct := rfl
@[simp] theorem releaseBrush_rfx (s : State) : (releaseBrush s).rfx = s.rfx := rfl
@[simp] theorem releaseBrush_dau (s : State) : (releaseBrush s).dau = s.dau := rfl
@[simp] theorem releaseBrush_snp (s : State) : (releaseBrush s).snp = s.snp := rfl
@[simp] theorem releaseBrush_evu (s : State) : (releaseBrush s).evu = s.evu := rfl
@[simp] theorem releaseBrush_pli (s : State) : (releaseBrush s).pli = s.pli := rfl
@[simp] theorem releaseBrush_choices (s : State) : (releaseBrush s).choices = s.choices := rfl
@[simp] theorem releaseBrush_pending (s : State) : (releaseBrush s).pending = s.pending := rfl

/-! ## `driveUp` -/

@[simp] theorem driveUp_tbs (s : State) : (driveUp s).tbs = s.tbs := rfl
@[simp] theorem driveUp_pot (s : State) : (driveUp s).pot = s.pot := rfl
@[simp] theorem driveUp_twn (s : State) : (driveUp s).twn = s.twn := rfl
@[simp] theorem driveUp_mru (s : State) : (driveUp s).mru = s.mru := rfl
@[simp] theorem driveUp_mgt (s : State) : (driveUp s).mgt = s.mgt := rfl
@[simp] theorem driveUp_rct (s : State) : (driveUp s).rct = s.rct := rfl
@[simp] theorem driveUp_rfx (s : State) : (driveUp s).rfx = s.rfx := rfl
@[simp] theorem driveUp_dau (s : State) : (driveUp s).dau = s.dau := rfl
@[simp] theorem driveUp_snp (s : State) : (driveUp s).snp = s.snp := rfl
@[simp] theorem driveUp_evu (s : State) : (driveUp s).evu = s.evu := rfl
@[simp] theorem driveUp_pli (s : State) : (driveUp s).pli = s.pli := rfl
@[simp] theorem driveUp_choices (s : State) : (driveUp s).choices = s.choices := rfl
@[simp] theorem driveUp_pending (s : State) : (driveUp s).pending = s.pending := rfl

/-! ## `senseUp` -/

@[simp] theorem senseUp_tbs (c : Bool) (s : State) : (senseUp c s).tbs = s.tbs := rfl
@[simp] theorem senseUp_pot (c : Bool) (s : State) : (senseUp c s).pot = s.pot := rfl
@[simp] theorem senseUp_twn (c : Bool) (s : State) : (senseUp c s).twn = s.twn := rfl
@[simp] theorem senseUp_mru (c : Bool) (s : State) : (senseUp c s).mru = s.mru := rfl
@[simp] theorem senseUp_mgt (c : Bool) (s : State) : (senseUp c s).mgt = s.mgt := rfl
@[simp] theorem senseUp_rct (c : Bool) (s : State) : (senseUp c s).rct = s.rct := rfl
@[simp] theorem senseUp_rfx (c : Bool) (s : State) : (senseUp c s).rfx = s.rfx := rfl
@[simp] theorem senseUp_dau (c : Bool) (s : State) : (senseUp c s).dau = s.dau := rfl
@[simp] theorem senseUp_dli (c : Bool) (s : State) : (senseUp c s).dli = s.dli := rfl
@[simp] theorem senseUp_evu (c : Bool) (s : State) : (senseUp c s).evu = s.evu := rfl
@[simp] theorem senseUp_pli (c : Bool) (s : State) : (senseUp c s).pli = s.pli := rfl
@[simp] theorem senseUp_choices (c : Bool) (s : State) : (senseUp c s).choices = s.choices := rfl
@[simp] theorem senseUp_pending (c : Bool) (s : State) : (senseUp c s).pending = s.pending := rfl

/-! ## `countPlanError` -/

@[simp] theorem countPlanError_tbs (s : State) : (countPlanError s).tbs = s.tbs := rfl
@[simp] theorem countPlanError_pot (s : State) : (countPlanError s).pot = s.pot := rfl
@[simp] theorem countPlanError_twn (s : State) : (countPlanError s).twn = s.twn := rfl
@[simp] theorem countPlanError_mru (s : State) : (countPlanError s).mru = s.mru := rfl
@[simp] theorem countPlanError_mgt (s : State) : (countPlanError s).mgt = s.mgt := rfl
@[simp] theorem countPlanError_rct (s : State) : (countPlanError s).rct = s.rct := rfl
@[simp] theorem countPlanError_rfx (s : State) : (countPlanError s).rfx = s.rfx := rfl
@[simp] theorem countPlanError_dau (s : State) : (countPlanError s).dau = s.dau := rfl
@[simp] theorem countPlanError_dli (s : State) : (countPlanError s).dli = s.dli := rfl
@[simp] theorem countPlanError_snp (s : State) : (countPlanError s).snp = s.snp := rfl
@[simp] theorem countPlanError_evu (s : State) : (countPlanError s).evu = s.evu := rfl
@[simp] theorem countPlanError_choices (s : State) : (countPlanError s).choices = s.choices := rfl
@[simp] theorem countPlanError_pending (s : State) : (countPlanError s).pending = s.pending := rfl

/-! ## `queueTileRequest` -/

@[simp] theorem queueTileRequest_tbs (k : TileKey) (s : State) : (queueTileRequest k s).tbs = s.tbs := rfl
@[simp] theorem queueTileRequest_pot (k : TileKey) (s : State) : (queueTileRequest k s).pot = s.pot := rfl
@[simp] theorem queueTileRequest_twn (k : TileKey) (s : State) : (queueTileRequest k s).twn = s.twn := rfl
@[simp] theorem queueTileRequest_mru (k : TileKey) (s : State) : (queueTileRequest k s).mru = s.mru := rfl
@[simp] theorem queueTileRequest_mgt (k : TileKey) (s : State) : (queueTileRequest k s).mgt = s.mgt := rfl
@[simp] theorem queueTileRequest_rct (k : TileKey) (s : State) : (queueTileRequest k s).rct = s.rct := rfl
@[simp] theorem queueTileRequest_rfx (k : TileKey) (s : State) : (queueTileRequest k s).rfx = s.rfx := rfl
@[simp] theorem queueTileRequest_dau (k : TileKey) (s : State) : (queueTileRequest k s).dau = s.dau := rfl
@[simp] theorem queueTileRequest_dli (k : TileKey) (s : State) : (queueTileRequest k s).dli = s.dli := rfl
@[simp] theorem queueTileRequest_snp (k : TileKey) (s : State) : (queueTileRequest k s).snp = s.snp := rfl
@[simp] theorem queueTileRequest_evu (k : TileKey) (s : State) : (queueTileRequest k s).evu = s.evu := rfl
@[simp] theorem queueTileRequest_choices (k : TileKey) (s : State) : (queueTileRequest k s).choices = s.choices := rfl
@[simp] theorem queueTileRequest_pending (k : TileKey) (s : State) : (queueTileRequest k s).pending = s.pending := rfl

/-! ## `withdrawTileRequest` -/

@[simp] theorem withdrawTileRequest_tbs (k : TileKey) (s : State) : (withdrawTileRequest k s).tbs = s.tbs := rfl
@[simp] theorem withdrawTileRequest_pot (k : TileKey) (s : State) : (withdrawTileRequest k s).pot = s.pot := rfl
@[simp] theorem withdrawTileRequest_twn (k : TileKey) (s : State) : (withdrawTileRequest k s).twn = s.twn := rfl
@[simp] theorem withdrawTileRequest_mru (k : TileKey) (s : State) : (withdrawTileRequest k s).mru = s.mru := rfl
@[simp] theorem withdrawTileRequest_mgt (k : TileKey) (s : State) : (withdrawTileRequest k s).mgt = s.mgt := rfl
@[simp] theorem withdrawTileRequest_rct (k : TileKey) (s : State) : (withdrawTileRequest k s).rct = s.rct := rfl
@[simp] theorem withdrawTileRequest_rfx (k : TileKey) (s : State) : (withdrawTileRequest k s).rfx = s.rfx := rfl
@[simp] theorem withdrawTileRequest_dau (k : TileKey) (s : State) : (withdrawTileRequest k s).dau = s.dau := rfl
@[simp] theorem withdrawTileRequest_dli (k : TileKey) (s : State) : (withdrawTileRequest k s).dli = s.dli := rfl
@[simp] theorem withdrawTileRequest_snp (k : TileKey) (s : State) : (withdrawTileRequest k s).snp = s.snp := rfl
@[simp] theorem withdrawTileRequest_evu (k : TileKey) (s : State) : (withdrawTileRequest k s).evu = s.evu := rfl
@[simp] theorem withdrawTileRequest_choices (k : TileKey) (s : State) : (withdrawTileRequest k s).choices = s.choices := rfl
@[simp] theorem withdrawTileRequest_pending (k : TileKey) (s : State) : (withdrawTileRequest k s).pending = s.pending := rfl

/-! ## `openRequest` -/

@[simp] theorem openRequest_tbs (i : SlotNo) (k : TileKey) (s : State) : (openRequest i k s).tbs = s.tbs := rfl
@[simp] theorem openRequest_pot (i : SlotNo) (k : TileKey) (s : State) : (openRequest i k s).pot = s.pot := rfl
@[simp] theorem openRequest_mru (i : SlotNo) (k : TileKey) (s : State) : (openRequest i k s).mru = s.mru := rfl
@[simp] theorem openRequest_mgt (i : SlotNo) (k : TileKey) (s : State) : (openRequest i k s).mgt = s.mgt := rfl
@[simp] theorem openRequest_rct (i : SlotNo) (k : TileKey) (s : State) : (openRequest i k s).rct = s.rct := rfl
@[simp] theorem openRequest_rfx (i : SlotNo) (k : TileKey) (s : State) : (openRequest i k s).rfx = s.rfx := rfl
@[simp] theorem openRequest_dau (i : SlotNo) (k : TileKey) (s : State) : (openRequest i k s).dau = s.dau := rfl
@[simp] theorem openRequest_dli (i : SlotNo) (k : TileKey) (s : State) : (openRequest i k s).dli = s.dli := rfl
@[simp] theorem openRequest_snp (i : SlotNo) (k : TileKey) (s : State) : (openRequest i k s).snp = s.snp := rfl
@[simp] theorem openRequest_evu (i : SlotNo) (k : TileKey) (s : State) : (openRequest i k s).evu = s.evu := rfl
@[simp] theorem openRequest_choices (i : SlotNo) (k : TileKey) (s : State) : (openRequest i k s).choices = s.choices := rfl
@[simp] theorem openRequest_pending (i : SlotNo) (k : TileKey) (s : State) : (openRequest i k s).pending = s.pending := rfl

/-! ## `expireRequest` -/

@[simp] theorem expireRequest_tbs (i : SlotNo) (k : TileKey) (s : State) : (expireRequest i k s).tbs = s.tbs := rfl
@[simp] theorem expireRequest_pot (i : SlotNo) (k : TileKey) (s : State) : (expireRequest i k s).pot = s.pot := rfl
@[simp] theorem expireRequest_mru (i : SlotNo) (k : TileKey) (s : State) : (expireRequest i k s).mru = s.mru := rfl
@[simp] theorem expireRequest_mgt (i : SlotNo) (k : TileKey) (s : State) : (expireRequest i k s).mgt = s.mgt := rfl
@[simp] theorem expireRequest_rct (i : SlotNo) (k : TileKey) (s : State) : (expireRequest i k s).rct = s.rct := rfl
@[simp] theorem expireRequest_rfx (i : SlotNo) (k : TileKey) (s : State) : (expireRequest i k s).rfx = s.rfx := rfl
@[simp] theorem expireRequest_dau (i : SlotNo) (k : TileKey) (s : State) : (expireRequest i k s).dau = s.dau := rfl
@[simp] theorem expireRequest_dli (i : SlotNo) (k : TileKey) (s : State) : (expireRequest i k s).dli = s.dli := rfl
@[simp] theorem expireRequest_snp (i : SlotNo) (k : TileKey) (s : State) : (expireRequest i k s).snp = s.snp := rfl
@[simp] theorem expireRequest_choices (i : SlotNo) (k : TileKey) (s : State) : (expireRequest i k s).choices = s.choices := rfl
@[simp] theorem expireRequest_pending (i : SlotNo) (k : TileKey) (s : State) : (expireRequest i k s).pending = s.pending := rfl

/-! ## `levelChange` -/

@[simp] theorem levelChange_tbs (s : State) : (levelChange s).tbs = s.tbs := rfl
@[simp] theorem levelChange_pot (s : State) : (levelChange s).pot = s.pot := rfl
@[simp] theorem levelChange_mru (s : State) : (levelChange s).mru = s.mru := rfl
@[simp] theorem levelChange_mgt (s : State) : (levelChange s).mgt = s.mgt := rfl
@[simp] theorem levelChange_rct (s : State) : (levelChange s).rct = s.rct := rfl
@[simp] theorem levelChange_rfx (s : State) : (levelChange s).rfx = s.rfx := rfl
@[simp] theorem levelChange_dau (s : State) : (levelChange s).dau = s.dau := rfl
@[simp] theorem levelChange_dli (s : State) : (levelChange s).dli = s.dli := rfl
@[simp] theorem levelChange_snp (s : State) : (levelChange s).snp = s.snp := rfl
@[simp] theorem levelChange_evu (s : State) : (levelChange s).evu = s.evu := rfl
@[simp] theorem levelChange_choices (s : State) : (levelChange s).choices = s.choices := rfl
@[simp] theorem levelChange_pending (s : State) : (levelChange s).pending = s.pending := rfl

/-! ## `losePose` -/

@[simp] theorem losePose_tbs (s : State) : (losePose s).tbs = s.tbs := rfl
@[simp] theorem losePose_twn (s : State) : (losePose s).twn = s.twn := rfl
@[simp] theorem losePose_mru (s : State) : (losePose s).mru = s.mru := rfl
@[simp] theorem losePose_mgt (s : State) : (losePose s).mgt = s.mgt := rfl
@[simp] theorem losePose_rct (s : State) : (losePose s).rct = s.rct := rfl
@[simp] theorem losePose_rfx (s : State) : (losePose s).rfx = s.rfx := rfl
@[simp] theorem losePose_dau (s : State) : (losePose s).dau = s.dau := rfl
@[simp] theorem losePose_dli (s : State) : (losePose s).dli = s.dli := rfl
@[simp] theorem losePose_snp (s : State) : (losePose s).snp = s.snp := rfl
@[simp] theorem losePose_choices (s : State) : (losePose s).choices = s.choices := rfl
@[simp] theorem losePose_pending (s : State) : (losePose s).pending = s.pending := rfl

/-! ## `requestStatus` -/

@[simp] theorem requestStatus_tbs (s : State) : (requestStatus s).tbs = s.tbs := rfl
@[simp] theorem requestStatus_pot (s : State) : (requestStatus s).pot = s.pot := rfl
@[simp] theorem requestStatus_twn (s : State) : (requestStatus s).twn = s.twn := rfl
@[simp] theorem requestStatus_mru (s : State) : (requestStatus s).mru = s.mru := rfl
@[simp] theorem requestStatus_mgt (s : State) : (requestStatus s).mgt = s.mgt := rfl
@[simp] theorem requestStatus_rct (s : State) : (requestStatus s).rct = s.rct := rfl
@[simp] theorem requestStatus_rfx (s : State) : (requestStatus s).rfx = s.rfx := rfl
@[simp] theorem requestStatus_dau (s : State) : (requestStatus s).dau = s.dau := rfl
@[simp] theorem requestStatus_dli (s : State) : (requestStatus s).dli = s.dli := rfl
@[simp] theorem requestStatus_snp (s : State) : (requestStatus s).snp = s.snp := rfl
@[simp] theorem requestStatus_evu (s : State) : (requestStatus s).evu = s.evu := rfl
@[simp] theorem requestStatus_choices (s : State) : (requestStatus s).choices = s.choices := rfl
@[simp] theorem requestStatus_pending (s : State) : (requestStatus s).pending = s.pending := rfl

/-! ## `beginLeaving` -/

@[simp] theorem beginLeaving_tbs (f : PlanFrame) (s : State) : (beginLeaving f s).tbs = s.tbs := rfl
@[simp] theorem beginLeaving_pot (f : PlanFrame) (s : State) : (beginLeaving f s).pot = s.pot := rfl
@[simp] theorem beginLeaving_twn (f : PlanFrame) (s : State) : (beginLeaving f s).twn = s.twn := rfl
@[simp] theorem beginLeaving_mru (f : PlanFrame) (s : State) : (beginLeaving f s).mru = s.mru := rfl
@[simp] theorem beginLeaving_mgt (f : PlanFrame) (s : State) : (beginLeaving f s).mgt = s.mgt := rfl
@[simp] theorem beginLeaving_rct (f : PlanFrame) (s : State) : (beginLeaving f s).rct = s.rct := rfl
@[simp] theorem beginLeaving_rfx (f : PlanFrame) (s : State) : (beginLeaving f s).rfx = s.rfx := rfl
@[simp] theorem beginLeaving_dau (f : PlanFrame) (s : State) : (beginLeaving f s).dau = s.dau := rfl
@[simp] theorem beginLeaving_dli (f : PlanFrame) (s : State) : (beginLeaving f s).dli = s.dli := rfl
@[simp] theorem beginLeaving_snp (f : PlanFrame) (s : State) : (beginLeaving f s).snp = s.snp := rfl
@[simp] theorem beginLeaving_evu (f : PlanFrame) (s : State) : (beginLeaving f s).evu = s.evu := rfl
@[simp] theorem beginLeaving_choices (f : PlanFrame) (s : State) : (beginLeaving f s).choices = s.choices := rfl
@[simp] theorem beginLeaving_pending (f : PlanFrame) (s : State) : (beginLeaving f s).pending = s.pending := rfl

/-! ## `sendStatus` -/

@[simp] theorem sendStatus_tbs (s : State) : (sendStatus s).tbs = s.tbs := rfl
@[simp] theorem sendStatus_pot (s : State) : (sendStatus s).pot = s.pot := rfl
@[simp] theorem sendStatus_twn (s : State) : (sendStatus s).twn = s.twn := rfl
@[simp] theorem sendStatus_mru (s : State) : (sendStatus s).mru = s.mru := rfl
@[simp] theorem sendStatus_mgt (s : State) : (sendStatus s).mgt = s.mgt := rfl
@[simp] theorem sendStatus_rct (s : State) : (sendStatus s).rct = s.rct := rfl
@[simp] theorem sendStatus_rfx (s : State) : (sendStatus s).rfx = s.rfx := rfl
@[simp] theorem sendStatus_dau (s : State) : (sendStatus s).dau = s.dau := rfl
@[simp] theorem sendStatus_dli (s : State) : (sendStatus s).dli = s.dli := rfl
@[simp] theorem sendStatus_snp (s : State) : (sendStatus s).snp = s.snp := rfl
@[simp] theorem sendStatus_choices (s : State) : (sendStatus s).choices = s.choices := rfl
@[simp] theorem sendStatus_pending (s : State) : (sendStatus s).pending = s.pending := rfl

/-! ## `dropMark` -/

@[simp] theorem dropMark_tbs (m : MarkKind) (k : TileKey) (s : State) : (dropMark m k s).tbs = s.tbs := rfl
@[simp] theorem dropMark_pot (m : MarkKind) (k : TileKey) (s : State) : (dropMark m k s).pot = s.pot := rfl
@[simp] theorem dropMark_twn (m : MarkKind) (k : TileKey) (s : State) : (dropMark m k s).twn = s.twn := rfl
@[simp] theorem dropMark_mgt (m : MarkKind) (k : TileKey) (s : State) : (dropMark m k s).mgt = s.mgt := rfl
@[simp] theorem dropMark_rct (m : MarkKind) (k : TileKey) (s : State) : (dropMark m k s).rct = s.rct := rfl
@[simp] theorem dropMark_rfx (m : MarkKind) (k : TileKey) (s : State) : (dropMark m k s).rfx = s.rfx := rfl
@[simp] theorem dropMark_dau (m : MarkKind) (k : TileKey) (s : State) : (dropMark m k s).dau = s.dau := rfl
@[simp] theorem dropMark_dli (m : MarkKind) (k : TileKey) (s : State) : (dropMark m k s).dli = s.dli := rfl
@[simp] theorem dropMark_snp (m : MarkKind) (k : TileKey) (s : State) : (dropMark m k s).snp = s.snp := rfl
@[simp] theorem dropMark_choices (m : MarkKind) (k : TileKey) (s : State) : (dropMark m k s).choices = s.choices := rfl
@[simp] theorem dropMark_pending (m : MarkKind) (k : TileKey) (s : State) : (dropMark m k s).pending = s.pending := rfl

/-! ## `afterReport` -/

@[simp] theorem afterReport_tbs (i : SlotNo) (t : Tile) (m : Marks) (rest : List TileKey) (s : State) : (afterReport i t m rest s).tbs = s.tbs := rfl
@[simp] theorem afterReport_pot (i : SlotNo) (t : Tile) (m : Marks) (rest : List TileKey) (s : State) : (afterReport i t m rest s).pot = s.pot := rfl
@[simp] theorem afterReport_mgt (i : SlotNo) (t : Tile) (m : Marks) (rest : List TileKey) (s : State) : (afterReport i t m rest s).mgt = s.mgt := rfl
@[simp] theorem afterReport_rct (i : SlotNo) (t : Tile) (m : Marks) (rest : List TileKey) (s : State) : (afterReport i t m rest s).rct = s.rct := rfl
@[simp] theorem afterReport_rfx (i : SlotNo) (t : Tile) (m : Marks) (rest : List TileKey) (s : State) : (afterReport i t m rest s).rfx = s.rfx := rfl
@[simp] theorem afterReport_dau (i : SlotNo) (t : Tile) (m : Marks) (rest : List TileKey) (s : State) : (afterReport i t m rest s).dau = s.dau := rfl
@[simp] theorem afterReport_dli (i : SlotNo) (t : Tile) (m : Marks) (rest : List TileKey) (s : State) : (afterReport i t m rest s).dli = s.dli := rfl
@[simp] theorem afterReport_snp (i : SlotNo) (t : Tile) (m : Marks) (rest : List TileKey) (s : State) : (afterReport i t m rest s).snp = s.snp := rfl
@[simp] theorem afterReport_evu (i : SlotNo) (t : Tile) (m : Marks) (rest : List TileKey) (s : State) : (afterReport i t m rest s).evu = s.evu := rfl
@[simp] theorem afterReport_pli (i : SlotNo) (t : Tile) (m : Marks) (rest : List TileKey) (s : State) : (afterReport i t m rest s).pli = s.pli := rfl
@[simp] theorem afterReport_choices (i : SlotNo) (t : Tile) (m : Marks) (rest : List TileKey) (s : State) : (afterReport i t m rest s).choices = s.choices := rfl
@[simp] theorem afterReport_pending (i : SlotNo) (t : Tile) (m : Marks) (rest : List TileKey) (s : State) : (afterReport i t m rest s).pending = s.pending := rfl

/-! ## `queueAnswer` -/

@[simp] theorem queueAnswer_tbs (x : Selector) (a : Answer) (s : State) : (queueAnswer x a s).tbs = s.tbs := rfl
@[simp] theorem queueAnswer_pot (x : Selector) (a : Answer) (s : State) : (queueAnswer x a s).pot = s.pot := rfl
@[simp] theorem queueAnswer_twn (x : Selector) (a : Answer) (s : State) : (queueAnswer x a s).twn = s.twn := rfl
@[simp] theorem queueAnswer_mru (x : Selector) (a : Answer) (s : State) : (queueAnswer x a s).mru = s.mru := rfl
@[simp] theorem queueAnswer_mgt (x : Selector) (a : Answer) (s : State) : (queueAnswer x a s).mgt = s.mgt := rfl
@[simp] theorem queueAnswer_rct (x : Selector) (a : Answer) (s : State) : (queueAnswer x a s).rct = s.rct := rfl
@[simp] theorem queueAnswer_rfx (x : Selector) (a : Answer) (s : State) : (queueAnswer x a s).rfx = s.rfx := rfl
@[simp] theorem queueAnswer_dau (x : Selector) (a : Answer) (s : State) : (queueAnswer x a s).dau = s.dau := rfl
@[simp] theorem queueAnswer_dli (x : Selector) (a : Answer) (s : State) : (queueAnswer x a s).dli = s.dli := rfl
@[simp] theorem queueAnswer_snp (x : Selector) (a : Answer) (s : State) : (queueAnswer x a s).snp = s.snp := rfl
@[simp] theorem queueAnswer_evu (x : Selector) (a : Answer) (s : State) : (queueAnswer x a s).evu = s.evu := rfl
@[simp] theorem queueAnswer_choices (x : Selector) (a : Answer) (s : State) : (queueAnswer x a s).choices = s.choices := rfl
@[simp] theorem queueAnswer_pending (x : Selector) (a : Answer) (s : State) : (queueAnswer x a s).pending = s.pending := rfl

/-! ## `storeCalibration` -/

@[simp] theorem storeCalibration_pot (c : Calibration) (s : State) : (storeCalibration c s).pot = s.pot := rfl
@[simp] theorem storeCalibration_twn (c : Calibration) (s : State) : (storeCalibration c s).twn = s.twn := rfl
@[simp] theorem storeCalibration_mru (c : Calibration) (s : State) : (storeCalibration c s).mru = s.mru := rfl
@[simp] theorem storeCalibration_mgt (c : Calibration) (s : State) : (storeCalibration c s).mgt = s.mgt := rfl
@[simp] theorem storeCalibration_rct (c : Calibration) (s : State) : (storeCalibration c s).rct = s.rct := rfl
@[simp] theorem storeCalibration_rfx (c : Calibration) (s : State) : (storeCalibration c s).rfx = s.rfx := rfl
@[simp] theorem storeCalibration_dau (c : Calibration) (s : State) : (storeCalibration c s).dau = s.dau := rfl
@[simp] theorem storeCalibration_dli (c : Calibration) (s : State) : (storeCalibration c s).dli = s.dli := rfl
@[simp] theorem storeCalibration_snp (c : Calibration) (s : State) : (storeCalibration c s).snp = s.snp := rfl
@[simp] theorem storeCalibration_evu (c : Calibration) (s : State) : (storeCalibration c s).evu = s.evu := rfl
@[simp] theorem storeCalibration_pli (c : Calibration) (s : State) : (storeCalibration c s).pli = s.pli := rfl
@[simp] theorem storeCalibration_choices (c : Calibration) (s : State) : (storeCalibration c s).choices = s.choices := rfl
@[simp] theorem storeCalibration_pending (c : Calibration) (s : State) : (storeCalibration c s).pending = s.pending := rfl

/-! ## `beginWatches` -/

@[simp] theorem beginWatches_tbs (s : State) : (beginWatches s).tbs = s.tbs := rfl
@[simp] theorem beginWatches_pot (s : State) : (beginWatches s).pot = s.pot := rfl
@[simp] theorem beginWatches_twn (s : State) : (beginWatches s).twn = s.twn := rfl
@[simp] theorem beginWatches_mru (s : State) : (beginWatches s).mru = s.mru := rfl
@[simp] theorem beginWatches_mgt (s : State) : (beginWatches s).mgt = s.mgt := rfl
@[simp] theorem beginWatches_rct (s : State) : (beginWatches s).rct = s.rct := rfl
@[simp] theorem beginWatches_rfx (s : State) : (beginWatches s).rfx = s.rfx := rfl
@[simp] theorem beginWatches_dau (s : State) : (beginWatches s).dau = s.dau := rfl
@[simp] theorem beginWatches_evu (s : State) : (beginWatches s).evu = s.evu := rfl
@[simp] theorem beginWatches_choices (s : State) : (beginWatches s).choices = s.choices := rfl
@[simp] theorem beginWatches_pending (s : State) : (beginWatches s).pending = s.pending := rfl

/-! ## `beginPeriod` -/

@[simp] theorem beginPeriod_tbs (s : State) : (beginPeriod s).tbs = s.tbs := rfl
@[simp] theorem beginPeriod_pot (s : State) : (beginPeriod s).pot = s.pot := rfl
@[simp] theorem beginPeriod_twn (s : State) : (beginPeriod s).twn = s.twn := rfl
@[simp] theorem beginPeriod_mru (s : State) : (beginPeriod s).mru = s.mru := rfl
@[simp] theorem beginPeriod_rct (s : State) : (beginPeriod s).rct = s.rct := rfl
@[simp] theorem beginPeriod_rfx (s : State) : (beginPeriod s).rfx = s.rfx := rfl
@[simp] theorem beginPeriod_dau (s : State) : (beginPeriod s).dau = s.dau := rfl
@[simp] theorem beginPeriod_dli (s : State) : (beginPeriod s).dli = s.dli := rfl
@[simp] theorem beginPeriod_snp (s : State) : (beginPeriod s).snp = s.snp := rfl
@[simp] theorem beginPeriod_evu (s : State) : (beginPeriod s).evu = s.evu := rfl
@[simp] theorem beginPeriod_pli (s : State) : (beginPeriod s).pli = s.pli := rfl
@[simp] theorem beginPeriod_choices (s : State) : (beginPeriod s).choices = s.choices := rfl
@[simp] theorem beginPeriod_pending (s : State) : (beginPeriod s).pending = s.pending := rfl

/-! ## `nextChoice` -/

@[simp] theorem nextChoice_tbs (s : State) : (nextChoice s).tbs = s.tbs := rfl
@[simp] theorem nextChoice_pot (s : State) : (nextChoice s).pot = s.pot := rfl
@[simp] theorem nextChoice_twn (s : State) : (nextChoice s).twn = s.twn := rfl
@[simp] theorem nextChoice_mru (s : State) : (nextChoice s).mru = s.mru := rfl
@[simp] theorem nextChoice_mgt (s : State) : (nextChoice s).mgt = s.mgt := rfl
@[simp] theorem nextChoice_rct (s : State) : (nextChoice s).rct = s.rct := rfl
@[simp] theorem nextChoice_rfx (s : State) : (nextChoice s).rfx = s.rfx := rfl
@[simp] theorem nextChoice_dau (s : State) : (nextChoice s).dau = s.dau := rfl
@[simp] theorem nextChoice_dli (s : State) : (nextChoice s).dli = s.dli := rfl
@[simp] theorem nextChoice_snp (s : State) : (nextChoice s).snp = s.snp := rfl
@[simp] theorem nextChoice_evu (s : State) : (nextChoice s).evu = s.evu := rfl
@[simp] theorem nextChoice_pli (s : State) : (nextChoice s).pli = s.pli := rfl
@[simp] theorem nextChoice_pending (s : State) : (nextChoice s).pending = s.pending := rfl

/-! ## `raiseHazard` -/

@[simp] theorem raiseHazard_tbs (h : Hazard) (n : Option Nat) (s : State) : (raiseHazard h n s).tbs = s.tbs := rfl
@[simp] theorem raiseHazard_pot (h : Hazard) (n : Option Nat) (s : State) : (raiseHazard h n s).pot = s.pot := rfl
@[simp] theorem raiseHazard_twn (h : Hazard) (n : Option Nat) (s : State) : (raiseHazard h n s).twn = s.twn := rfl
@[simp] theorem raiseHazard_mru (h : Hazard) (n : Option Nat) (s : State) : (raiseHazard h n s).mru = s.mru := rfl
@[simp] theorem raiseHazard_mgt (h : Hazard) (n : Option Nat) (s : State) : (raiseHazard h n s).mgt = s.mgt := rfl
@[simp] theorem raiseHazard_rct (h : Hazard) (n : Option Nat) (s : State) : (raiseHazard h n s).rct = s.rct := rfl
@[simp] theorem raiseHazard_rfx (h : Hazard) (n : Option Nat) (s : State) : (raiseHazard h n s).rfx = s.rfx := rfl
@[simp] theorem raiseHazard_dau (h : Hazard) (n : Option Nat) (s : State) : (raiseHazard h n s).dau = s.dau := rfl
@[simp] theorem raiseHazard_dli (h : Hazard) (n : Option Nat) (s : State) : (raiseHazard h n s).dli = s.dli := rfl
@[simp] theorem raiseHazard_snp (h : Hazard) (n : Option Nat) (s : State) : (raiseHazard h n s).snp = s.snp := rfl
@[simp] theorem raiseHazard_choices (h : Hazard) (n : Option Nat) (s : State) : (raiseHazard h n s).choices = s.choices := rfl
@[simp] theorem raiseHazard_pending (h : Hazard) (n : Option Nat) (s : State) : (raiseHazard h n s).pending = s.pending := rfl

/-! ## `haltFor` -/

@[simp] theorem haltFor_tbs (h : Hazard) (s : State) : (haltFor h s).tbs = s.tbs := rfl
@[simp] theorem haltFor_pot (h : Hazard) (s : State) : (haltFor h s).pot = s.pot := rfl
@[simp] theorem haltFor_twn (h : Hazard) (s : State) : (haltFor h s).twn = s.twn := rfl
@[simp] theorem haltFor_mru (h : Hazard) (s : State) : (haltFor h s).mru = s.mru := rfl
@[simp] theorem haltFor_snp (h : Hazard) (s : State) : (haltFor h s).snp = s.snp := rfl
@[simp] theorem haltFor_evu (h : Hazard) (s : State) : (haltFor h s).evu = s.evu := rfl
@[simp] theorem haltFor_pli (h : Hazard) (s : State) : (haltFor h s).pli = s.pli := rfl
@[simp] theorem haltFor_choices (h : Hazard) (s : State) : (haltFor h s).choices = s.choices := rfl
@[simp] theorem haltFor_pending (h : Hazard) (s : State) : (haltFor h s).pending = s.pending := rfl

/-! ## `enterLifted` -/

@[simp] theorem enterLifted_tbs (s : State) : (enterLifted s).tbs = s.tbs := rfl
@[simp] theorem enterLifted_pot (s : State) : (enterLifted s).pot = s.pot := rfl
@[simp] theorem enterLifted_twn (s : State) : (enterLifted s).twn = s.twn := rfl
@[simp] theorem enterLifted_mru (s : State) : (enterLifted s).mru = s.mru := rfl
@[simp] theorem enterLifted_snp (s : State) : (enterLifted s).snp = s.snp := rfl
@[simp] theorem enterLifted_choices (s : State) : (enterLifted s).choices = s.choices := rfl
@[simp] theorem enterLifted_pending (s : State) : (enterLifted s).pending = s.pending := rfl

/-! ## `endLifted` -/

@[simp] theorem endLifted_tbs (s : State) : (endLifted s).tbs = s.tbs := rfl
@[simp] theorem endLifted_twn (s : State) : (endLifted s).twn = s.twn := rfl
@[simp] theorem endLifted_mru (s : State) : (endLifted s).mru = s.mru := rfl
@[simp] theorem endLifted_mgt (s : State) : (endLifted s).mgt = s.mgt := rfl
@[simp] theorem endLifted_dli (s : State) : (endLifted s).dli = s.dli := rfl
@[simp] theorem endLifted_snp (s : State) : (endLifted s).snp = s.snp := rfl
@[simp] theorem endLifted_choices (s : State) : (endLifted s).choices = s.choices := rfl
@[simp] theorem endLifted_pending (s : State) : (endLifted s).pending = s.pending := rfl

/-! ## `failApproach` -/

@[simp] theorem failApproach_tbs (r : DockFailure) (s : State) : (failApproach r s).tbs = s.tbs := rfl
@[simp] theorem failApproach_pot (r : DockFailure) (s : State) : (failApproach r s).pot = s.pot := rfl
@[simp] theorem failApproach_twn (r : DockFailure) (s : State) : (failApproach r s).twn = s.twn := rfl
@[simp] theorem failApproach_mru (r : DockFailure) (s : State) : (failApproach r s).mru = s.mru := rfl
@[simp] theorem failApproach_mgt (r : DockFailure) (s : State) : (failApproach r s).mgt = s.mgt := rfl
@[simp] theorem failApproach_dli (r : DockFailure) (s : State) : (failApproach r s).dli = s.dli := rfl
@[simp] theorem failApproach_snp (r : DockFailure) (s : State) : (failApproach r s).snp = s.snp := rfl
@[simp] theorem failApproach_choices (r : DockFailure) (s : State) : (failApproach r s).choices = s.choices := rfl
@[simp] theorem failApproach_pending (r : DockFailure) (s : State) : (failApproach r s).pending = s.pending := rfl

/-! ## `handOver` -/

@[simp] theorem handOver_tbs (s : State) : (handOver s).tbs = s.tbs := rfl
@[simp] theorem handOver_pot (s : State) : (handOver s).pot = s.pot := rfl
@[simp] theorem handOver_twn (s : State) : (handOver s).twn = s.twn := rfl
@[simp] theorem handOver_mru (s : State) : (handOver s).mru = s.mru := rfl
@[simp] theorem handOver_dli (s : State) : (handOver s).dli = s.dli := rfl
@[simp] theorem handOver_snp (s : State) : (handOver s).snp = s.snp := rfl
@[simp] theorem handOver_evu (s : State) : (handOver s).evu = s.evu := rfl
@[simp] theorem handOver_pli (s : State) : (handOver s).pli = s.pli := rfl
@[simp] theorem handOver_choices (s : State) : (handOver s).choices = s.choices := rfl
@[simp] theorem handOver_pending (s : State) : (handOver s).pending = s.pending := rfl

/-! ## `takeCreep` -/

@[simp] theorem takeCreep_tbs (n : Nat) (s : State) : (takeCreep n s).tbs = s.tbs := rfl
@[simp] theorem takeCreep_pot (n : Nat) (s : State) : (takeCreep n s).pot = s.pot := rfl
@[simp] theorem takeCreep_twn (n : Nat) (s : State) : (takeCreep n s).twn = s.twn := rfl
@[simp] theorem takeCreep_mru (n : Nat) (s : State) : (takeCreep n s).mru = s.mru := rfl
@[simp] theorem takeCreep_mgt (n : Nat) (s : State) : (takeCreep n s).mgt = s.mgt := rfl
@[simp] theorem takeCreep_dli (n : Nat) (s : State) : (takeCreep n s).dli = s.dli := rfl
@[simp] theorem takeCreep_snp (n : Nat) (s : State) : (takeCreep n s).snp = s.snp := rfl
@[simp] theorem takeCreep_evu (n : Nat) (s : State) : (takeCreep n s).evu = s.evu := rfl
@[simp] theorem takeCreep_pli (n : Nat) (s : State) : (takeCreep n s).pli = s.pli := rfl
@[simp] theorem takeCreep_choices (n : Nat) (s : State) : (takeCreep n s).choices = s.choices := rfl
@[simp] theorem takeCreep_pending (n : Nat) (s : State) : (takeCreep n s).pending = s.pending := rfl

/-! ## `takeUndock` -/

@[simp] theorem takeUndock_tbs (s : State) : (takeUndock s).tbs = s.tbs := rfl
@[simp] theorem takeUndock_pot (s : State) : (takeUndock s).pot = s.pot := rfl
@[simp] theorem takeUndock_twn (s : State) : (takeUndock s).twn = s.twn := rfl
@[simp] theorem takeUndock_mru (s : State) : (takeUndock s).mru = s.mru := rfl
@[simp] theorem takeUndock_mgt (s : State) : (takeUndock s).mgt = s.mgt := rfl
@[simp] theorem takeUndock_dli (s : State) : (takeUndock s).dli = s.dli := rfl
@[simp] theorem takeUndock_snp (s : State) : (takeUndock s).snp = s.snp := rfl
@[simp] theorem takeUndock_evu (s : State) : (takeUndock s).evu = s.evu := rfl
@[simp] theorem takeUndock_pli (s : State) : (takeUndock s).pli = s.pli := rfl
@[simp] theorem takeUndock_choices (s : State) : (takeUndock s).choices = s.choices := rfl
@[simp] theorem takeUndock_pending (s : State) : (takeUndock s).pending = s.pending := rfl

/-! ## `takeStop` -/

@[simp] theorem takeStop_tbs (s : State) : (takeStop s).tbs = s.tbs := rfl
@[simp] theorem takeStop_pot (s : State) : (takeStop s).pot = s.pot := rfl
@[simp] theorem takeStop_twn (s : State) : (takeStop s).twn = s.twn := rfl
@[simp] theorem takeStop_mru (s : State) : (takeStop s).mru = s.mru := rfl
@[simp] theorem takeStop_dli (s : State) : (takeStop s).dli = s.dli := rfl
@[simp] theorem takeStop_snp (s : State) : (takeStop s).snp = s.snp := rfl
@[simp] theorem takeStop_evu (s : State) : (takeStop s).evu = s.evu := rfl
@[simp] theorem takeStop_pli (s : State) : (takeStop s).pli = s.pli := rfl
@[simp] theorem takeStop_choices (s : State) : (takeStop s).choices = s.choices := rfl
@[simp] theorem takeStop_pending (s : State) : (takeStop s).pending = s.pending := rfl

/-! ## `restartBlocks` -/

@[simp] theorem restartBlocks_tbs (s : State) : (restartBlocks s).tbs = s.tbs := rfl
@[simp] theorem restartBlocks_dli (s : State) : (restartBlocks s).dli = s.dli := rfl
@[simp] theorem restartBlocks_snp (s : State) : (restartBlocks s).snp = s.snp := rfl
@[simp] theorem restartBlocks_evu (s : State) : (restartBlocks s).evu = s.evu := rfl
@[simp] theorem restartBlocks_pli (s : State) : (restartBlocks s).pli = s.pli := rfl
@[simp] theorem restartBlocks_choices (s : State) : (restartBlocks s).choices = s.choices := rfl
@[simp] theorem restartBlocks_pending (s : State) : (restartBlocks s).pending = s.pending := rfl

/-! ## `restartLines` -/

@[simp] theorem restartLines_tbs (s : State) : (restartLines s).tbs = s.tbs := rfl
@[simp] theorem restartLines_pot (s : State) : (restartLines s).pot = s.pot := rfl
@[simp] theorem restartLines_twn (s : State) : (restartLines s).twn = s.twn := rfl
@[simp] theorem restartLines_mru (s : State) : (restartLines s).mru = s.mru := rfl
@[simp] theorem restartLines_mgt (s : State) : (restartLines s).mgt = s.mgt := rfl
@[simp] theorem restartLines_rct (s : State) : (restartLines s).rct = s.rct := rfl
@[simp] theorem restartLines_rfx (s : State) : (restartLines s).rfx = s.rfx := rfl
@[simp] theorem restartLines_dau (s : State) : (restartLines s).dau = s.dau := rfl
@[simp] theorem restartLines_choices (s : State) : (restartLines s).choices = s.choices := rfl
@[simp] theorem restartLines_pending (s : State) : (restartLines s).pending = s.pending := rfl

/-! ## The fields that an update writes -/

@[simp] theorem withPose_pot (p : Pose) (s : State) : (withPose p s).pot = { s.pot with pose := p } := rfl

@[simp] theorem emptyHistory_pot (s : State) : (emptyHistory s).pot = { s.pot with history := [] } := rfl

@[simp] theorem withDock_dau (d : DockUnit) (s : State) : (withDock d s).dau = d := rfl

@[simp] theorem withPhase_rfx (p : ReflexPhase) (s : State) : (withPhase p s).rfx = { s.rfx with phase := p } := rfl

@[simp] theorem withArmed_rfx (a : Armed) (s : State) : (withArmed a s).rfx = { s.rfx with armed := a } := rfl

@[simp] theorem changeRun_state (r : RunState) (s : State) : (changeRun r s).rct.state = r := rfl

@[simp] theorem changeRun_modeQueue (r : RunState) (s : State) : (changeRun r s).rct.modeQueue = s.rct.modeQueue := rfl

@[simp] theorem changeRun_creep (r : RunState) (s : State) : (changeRun r s).rct.creep = s.rct.creep := rfl

@[simp] theorem sendSetpoint_lastSetpoints (vL vR : Int) (s : State) :
    (sendSetpoint vL vR s).dli.lastSetpoints = (vL, vR) := by
  simp only [sendSetpoint, sendDrive]
  cases s.dli.leaving <;> rfl

@[simp] theorem countLineError_of_drive (s : State) :
    countLineError .drive s = { s with dli := { s.dli with errors := countUp 65535 s.dli.errors } } := rfl

@[simp] theorem countLineError_of_sense (s : State) :
    countLineError .sense s = { s with snp := { s.snp with errors := countUp 65535 s.snp.errors } } := rfl

end Sys2Proof.Machine
end

