-- ==== Sys2Proof/Laws/Change.lean ====
section
/-! SUPPORT. What a command can do to the state, said once: a list of primitive changes, each with what is known when it is
made. Laws/Exec.lean shows that every command is a chain of them, so that a law holds after every command when each
primitive change keeps it. -/

namespace Sys2Proof.Machine

/-- The changes of the DAU's record within a run state, at the time count `now` (chapter 8). -/
inductive DockMove (state : RunState) (now : Time) (d : DockUnit) : DockUnit → Prop
  | observe (x : Sector) (h : d.phase = .track) : DockMove state now d
      { d with lastSector := some x, beaconTimer := some now }
  | note (x : Sector) : DockMove state now d { d with lastSector := some x }
  | count (n : Nat) (h : n ≤ 5) : DockMove state now d { d with contactCount := n }
  | contact (h : d.phase = .track ∨ d.phase = .search) : DockMove state now d
      { d with phase := .contact, beaconTimer := none, searchTurn := 0, contactCount := 5, idWait := 0 }
  | contactLost (h : d.phase = .contact) : DockMove state now d
      { d with phase := .track, beaconTimer := some now, contactCount := 0, idWait := 0 }
  | wait (n : Nat) (h : n ≤ 10) : DockMove state now d { d with idWait := n }
  | turn (n : Nat) (h : n ≤ 4223) : DockMove state now d { d with searchTurn := n }
  | found (x : Sector) (h : d.phase = .search) : DockMove state now d
      { d with phase := .track, lastSector := some x, beaconTimer := some now, searchTurn := 0 }
  | search (h : d.phase = .track) : DockMove state now d { d with phase := .search, beaconTimer := none, searchTurn := 0 }
  | halt (h : state = .approach) : DockMove state now d
      { d with phase := .bumpHalt, beaconTimer := none, contactCount := 0, idWait := 0, reverse := none }
  | back (h : d.phase = .bumpHalt) : DockMove state now d
      { d with phase := .bumpReverse, reverse := some { travel := 0, start := now } }
  | resume (h : d.phase = .bumpReverse) : DockMove state now d
      { d with phase := .track, beaconTimer := some now, reverse := none }
  | reverse (m : Measure) (h : d.reverse.isSome) : DockMove state now d { d with reverse := some m }

/-- The run states that a plain change of run state leads to. -/
def RunState.plain : RunState → Bool
  | .loading => false
  | .reflex => false
  | .approach => false
  | .undocking => false
  | _ => true

/-- One primitive change of the state that keeps every MARKED or SENT slot so, with its key (R37). -/
inductive Change (s : State) : State → Prop
  -- the Table Store
  | response (entries : List ResponseEntry) :
      Change s { s with tbs := { s.tbs with response := entries.foldl applyEntry s.tbs.response } }
  | learn (entries : List LearnEntry) : Change s { s with tbs := { s.tbs with learn := entries.foldl applyLearn s.tbs.learn } }
  | braking (limits : List Nat) (vclear : Nat) (h : limits.length = 16) :
      Change s { s with tbs := { s.tbs with braking := brakingTable limits vclear } }
  | calibration (c : Calibration) (h : c.InRange) : Change s (storeCalibration c s)
  | dockRecord (level x y heading code : Nat) :
      Change s { s with tbs := { s.tbs with dock := Machine.dockRecord level x y heading code } }
  -- the Pose Tracker
  | heading (n : Nat) (h : n ≤ 4095) : Change s (withPose { s.pot.pose with heading := n } s)
  | position (x y : Nat) (hx : x ≤ 819199) (hy : y ≤ 819199) : Change s (withPose { s.pot.pose with x := x, y := y } s)
  | snap : Change s
      (withPose { s.pot.pose with x := s.tbs.dock.x * 16, y := s.tbs.dock.y * 16, heading := s.tbs.dock.heading } s)
  | validity (b : Bool) : Change s (withPose { s.pot.pose with valid := b } s)
  | level (n : Nat) (h : s.twn.holdsMarks = false) (hn : n ≤ 3 ∨ n = s.tbs.dock.level) :
      Change s (withPose { (levelChange s).pot.pose with level := n } (levelChange s))
  | appendHistory : Change s (Machine.appendHistory s)
  | emptyHistory : Change s (Machine.emptyHistory s)
  -- the Tile Window and the MRU
  | openRequest (i : SlotNo) (k : TileKey) (hf : s.twn.find k = none) (hp : s.twn.pendingRequests < 6)
      (hl : k.level = s.pot.pose.level) (hi : s.twn.slotToTake s.pot.pose = some i) : Change s (Machine.openRequest i k s)
  | touch (i : SlotNo) (t : Tile) (h : (s.twn.slot i).tile? = some t) : Change s { s with twn := s.twn.touch i }
  | mark (i : SlotNo) (t : Tile) (r : MarkRecord) (h : (s.twn.slot i).tile? = some t) (hs : r.sent = false)
      (hm : mayMark s.tbs.response t.cells[r.cell] r.cls = true) : Change s (recordMark i r s)
  | dropped : Change s { s with mru := { s.mru with dropped := countUp 255 s.mru.dropped } }
  | expire (i : SlotNo) (k : TileKey) (at_ : Time) (h : s.twn.slot i = .pending k at_) :
      Change s (withdrawTileRequest k { s with twn := s.twn.vacate i })
  | answer (i : SlotNo) (k : TileKey) (at_ : Time) (t : Tile) (h : s.twn.slot i = .pending k at_) (hk : t.key = k) :
      Change s (withdrawTileRequest k { s with twn := s.twn.occupy i (.clean t) })
  | replace (i : SlotNo) (old t : Tile) (h : s.twn.slot i = .clean old) (hk : t.key = old.key) :
      Change s { s with twn := s.twn.occupy i (.clean t) }
  | unsolicited (i : SlotNo) (t : Tile) (h : s.twn.lowestEmpty = some i) (hf : s.twn.find t.key = none)
      (hl : t.key.level = s.pot.pose.level) : Change s { s with twn := s.twn.occupy i (.clean t) }
  | discardArrival : Change s { s with twn := s.twn.discardArrival }
  | dropClean (i : SlotNo) (t : Tile) (h : s.twn.slot i = .clean t) : Change s { s with twn := s.twn.vacate i }
  | offer (i : SlotNo) (t : Tile) (m : Marks) (h : s.twn.slot i = .marked t m) : Change s (offerReport t.key s)
  | report (i : SlotNo) (t : Tile) (m : Marks) (rest : List TileKey) (hq : s.mru.reportQueue = t.key :: rest)
      (hf : s.twn.find t.key = some i) (h : s.twn.slot i = .marked t m) : Change s (afterReport i t m rest s)
  | loseHead : Change s { s with mru := { s.mru with reportQueue := s.mru.reportQueue.tail } }
  -- the Motion Gate
  | queueSegment (g : Segment) (hg : g.InRange) (h : s.mgt.queue.length < 8) :
      Change s { s with mgt := { s.mgt with queue := s.mgt.queue ++ [g] } }
  | takeHead : Change s (Machine.takeHead s)
  | progress (c c' : CurrentSegment) (h : s.mgt.current = some c) (hc : c'.segment = c.segment) :
      Change s { s with mgt := { s.mgt with current := some c' } }
  | complete (starved : Bool) :
      Change s { s with mgt := { s.mgt with current := none, completed := (s.mgt.completed + 1) % 65536, starved := starved } }
  | discard : Change s (discardSegments s)
  | result (g : GateResult) : Change s { s with mgt := { s.mgt with result := g } }
  | period : Change s (beginPeriod s)
  -- the Run Controller
  | run (r : RunState) (h : r.plain = true) : Change s (changeRun r s)
  | step (b : Bool) : Change s { changeRun .step s with rct := { (changeRun .step s).rct with pendingStep := b } }
  | stepTaken : Change s { s with rct := { s.rct with pendingStep := false } }
  | creep (c : ModeCommand) (rest : List ModeCommand) (h : s.rct.modeQueue = c :: rest) (hk : c.kind = .creep) :
      Change s (takeCreep c.factor { s with rct := { s.rct with modeQueue := rest } })
  | undock (h : s.rct.state = .docked) : Change s (takeUndock s)
  | queueMode (kind : ModeKind) (factor : Nat) (h : s.rct.modeQueue.length < 3) :
      Change s { s with rct := { s.rct with modeQueue := s.rct.modeQueue ++ [modeCommand kind factor] } }
  | popMode : Change s { s with rct := { s.rct with modeQueue := s.rct.modeQueue.tail } }
  -- the Reflex Unit
  | halt (h : Hazard) (hs : s.rct.state ≠ .reflex) : Change s (withPhase (.halt h) (enterDiscarding .reflex s))
  | phase (p : ReflexPhase) (h : s.rfx.phase ≠ .none) (hp : p ≠ .none) : Change s (withPhase p s)
  | armed (a : Armed) : Change s (withArmed a s)
  | suspect (x : CliffSensor) (m : Option Measure) (h : m.isSome → s.rct.state.keepsSuspicion) : Change s (withSuspect x m s)
  | suspectTravel (n : Nat) : Change s (Machine.suspectTravel n s)
  | bumpCount : Change s { s with rfx := { s.rfx with approachBumps := min 3 (s.rfx.approachBumps + 1) } }
  -- the Dock Approach Unit
  | dock (d : DockUnit) (h : DockMove s.rct.state s.pot.timeCount s.dau d) : Change s (withDock d s)
  | handOver (h : s.rct.state = .homing) : Change s (Machine.handOver s)
  -- the Drive Link and the Sense Port
  | drive (d : DriveLink) (hr : d.reservation = s.dli.reservation) (hp : d.pendingBrush = s.dli.pendingBrush)
      (he : d.errors = s.dli.errors) (hw : DriveQueueLaw s → d.leaving = none → d.waiting = []) :
      Change s { s with dli := d }
  | command (b : BrushState) : Change s (sendBrushCommand b s)
  | hold (w : BrushState) (r : Reservation) (h : s.dli.reservation = some r) :
      Change s { s with dli := { s.dli with pendingBrush := if w = r.commanded then none else some w } }
  | release (h : s.dli.pendingBrush = none) : Change s (releaseBrush s)
  | sense (p : SensePort) (h : p.errors = s.snp.errors) : Change s { s with snp := p }
  | lineError (l : Line) : Change s (countLineError l s)
  -- the Event Unit and the Plan Link
  | raise (k : EventKind) (d : Detail) : Change s (Machine.raise k d s)
  | events (e : EventUnit) : Change s { s with evu := e }
  | plan (p : PlanLink) (he : p.events.Sublist s.pli.events) (hr : p.retries.Sublist s.pli.retries)
      (hq : p.requests.Sublist s.pli.requests) (hn : p.errors = s.pli.errors) : Change s { s with pli := p }
  | retry (f : RetryFrame) : Change s (queueRetry f s)
  | planError : Change s (countPlanError s)
  -- the model's own counter
  | choice (n : Nat) : Change s { s with choices := n }

/-- One primitive change that can release a MARKED or SENT slot: a merged tile, a Tile Drop while SENT, power-on and
Restart (R37). -/
inductive Release (s : State) : State → Prop
  | dropSent (i : SlotNo) (t : Tile) (m : Marks) (h : s.twn.slot i = .sent t m) : Release s { s with twn := s.twn.vacate i }
  | merge (i : SlotNo) (old t : Tile) (m : Marks) (h : s.twn.slot i = .sent old m) (hk : t.key = old.key) :
      Release s (mergeTile i t m s)
  | powerOn : Release s { State.reset with choices := s.choices, pending := s.pending }
  | restart : Release s (restartLines (restartBlocks s))

/-- A chain of changes that keep the MARKED and SENT slots. -/
abbrev Changes : State → State → Prop := Relation.ReflTransGen Change

/-- A chain of changes of either kind. -/
abbrev Moves : State → State → Prop := Relation.ReflTransGen fun s t => Change s t ∨ Release s t

theorem Changes.moves {s t : State} (h : Changes s t) : Moves s t := Relation.ReflTransGen.mono (fun _ _ => Or.inl) _ _ h

theorem Release.moves {s t : State} (h : Release s t) : Moves s t := .single (.inr h)

theorem takeHead_pending (s : State) : (takeHead s).pending = s.pending := by
  unfold takeHead
  split <;> rfl

theorem offerReport_pending (k : TileKey) (s : State) : (offerReport k s).pending = s.pending := by
  unfold offerReport
  split <;> rfl

theorem recordMark_pending (i : SlotNo) (r : MarkRecord) (s : State) : (recordMark i r s).pending = s.pending := by
  unfold recordMark
  split <;> first | rfl | exact offerReport_pending _ _

theorem mergeTile_pending (i : SlotNo) (t : Tile) (m : Marks) (s : State) : (mergeTile i t m s).pending = s.pending := by
  simp only [mergeTile]
  split <;> first | rfl | exact offerReport_pending _ _

theorem queueRetry_pending (f : RetryFrame) (s : State) : (queueRetry f s).pending = s.pending := by
  unfold queueRetry
  split <;> rfl

theorem countLineError_pending (l : Line) (s : State) : (countLineError l s).pending = s.pending := by
  cases l <;> rfl

/-- No primitive change touches the queue of commands that wait. -/
theorem Change.pending_eq {s t : State} (h : Change s t) : t.pending = s.pending := by
  cases h <;> first
    | rfl
    | exact takeHead_pending _
    | exact offerReport_pending _ _
    | exact recordMark_pending _ _ _
    | exact mergeTile_pending _ _ _ _
    | exact queueRetry_pending _ _
    | exact countLineError_pending _ _

theorem Release.pending_eq {s t : State} (h : Release s t) : t.pending = s.pending := by
  cases h <;> first
    | rfl
    | exact mergeTile_pending _ _ _ _

/-- A property that every primitive change keeps holds after a chain of them. -/
theorem Changes.keeps {P : State → Prop} (hP : ∀ s t, Change s t → P s → P t) {s t : State} (h : Changes s t) (hs : P s) :
    P t := by
  induction h with
  | refl => exact hs
  | tail _ hc ih => exact hP _ _ hc ih

/-- A property that every primitive change of either kind keeps holds after a chain of them. -/
theorem Moves.keeps {P : State → Prop} (hc : ∀ s t, Change s t → P s → P t) (hr : ∀ s t, Release s t → P s → P t)
    {s t : State} (h : Moves s t) (hs : P s) : P t := by
  induction h with
  | refl => exact hs
  | tail _ hm ih => exact hm.elim (fun h => hc _ _ h ih) (fun h => hr _ _ h ih)

theorem Moves.pending_eq {s t : State} (h : Moves s t) : t.pending = s.pending :=
  Moves.keeps (P := fun u => u.pending = s.pending) (fun _ _ hc hu => hc.pending_eq.trans hu)
    (fun _ _ hr hu => hr.pending_eq.trans hu) h rfl

/-! ## What the primitive changes with a case split write -/

theorem takeHead_only (s : State) : takeHead s = { s with mgt := (takeHead s).mgt } := by
  unfold takeHead
  split <;> rfl

theorem offerReport_only (k : TileKey) (s : State) : offerReport k s = { s with mru := (offerReport k s).mru } := by
  unfold offerReport
  split <;> rfl

theorem recordMark_only (i : SlotNo) (r : MarkRecord) (s : State) :
    recordMark i r s = { s with twn := (recordMark i r s).twn, mru := (recordMark i r s).mru } := by
  unfold recordMark
  split
  · simp only [becomeMarked, offerReport]
    split <;> rfl
  all_goals rfl

theorem mergeTile_only (i : SlotNo) (t : Tile) (m : Marks) (s : State) :
    mergeTile i t m s = { s with twn := (mergeTile i t m s).twn, mru := (mergeTile i t m s).mru } := by
  simp only [mergeTile]
  split
  · rfl
  · simp only [becomeMarked, offerReport]
    split <;> rfl

theorem queueRetry_only (f : RetryFrame) (s : State) : queueRetry f s = { s with pli := (queueRetry f s).pli } := by
  unfold queueRetry
  split <;> rfl

end Sys2Proof.Machine
end

