-- ==== Sys2Proof/Laws/Window.lean ====
section
/-! SUPPORT. The Tile Window's operations: what each answers and what each changes (chapter 3). -/

namespace Sys2Proof.Machine

/-! ## Slots -/

theorem mem_slotNumbers (i : SlotNo) : i ∈ slotNumbers := by revert i; decide

theorem slotNumbers_nodup : slotNumbers.Nodup := by decide

theorem TileWindow.slot_put (w : TileWindow) (i j : SlotNo) (x : Slot) :
    (w.put i x).slot j = if i = j then x else w.slot j := by
  simp only [slot, put, Fin.getElem_fin, Vector.getElem_set, Fin.ext_iff]

@[simp] theorem TileWindow.slot_put_self (w : TileWindow) (i : SlotNo) (x : Slot) : (w.put i x).slot i = x := by
  simp [slot_put]

theorem TileWindow.slot_put_of_ne (w : TileWindow) {i j : SlotNo} (x : Slot) (h : i ≠ j) :
    (w.put i x).slot j = w.slot j := by simp [slot_put, h]

@[simp] theorem TileWindow.slot_touch (w : TileWindow) (i j : SlotNo) : (w.touch i).slot j = w.slot j := rfl

theorem TileWindow.slot_occupy (w : TileWindow) (i j : SlotNo) (x : Slot) :
    (w.occupy i x).slot j = if i = j then x else w.slot j := slot_put w i j x

theorem TileWindow.slot_vacate (w : TileWindow) (i j : SlotNo) :
    (w.vacate i).slot j = if i = j then .empty else w.slot j := slot_put w i j .empty

@[simp] theorem TileWindow.slot_discardArrival (w : TileWindow) (i : SlotNo) : w.discardArrival.slot i = w.slot i := rfl

/-- Every slot of an emptied window is EMPTY. -/
@[simp] theorem slot_emptyWindow (n : Nat) (i : SlotNo) : ({ emptyWindow with unsolicited := n } : TileWindow).slot i = .empty := by
  simp [TileWindow.slot, emptyWindow]

/-! ## Searches -/

theorem TileWindow.find_some {w : TileWindow} {k : TileKey} {i : SlotNo} (h : w.find k = some i) :
    (w.slot i).key? = some k := by
  simpa [find] using List.find?_some h

theorem TileWindow.find_eq_none {w : TileWindow} {k : TileKey} : w.find k = none ↔ ∀ i, (w.slot i).key? ≠ some k := by
  simp [find, mem_slotNumbers]

theorem TileWindow.lowestEmpty_some {w : TileWindow} {i : SlotNo} (h : w.lowestEmpty = some i) : w.slot i = .empty := by
  have := List.find?_some h
  revert this
  cases w.slot i <;> simp [Slot.isEmpty]

theorem TileWindow.victim_some {w : TileWindow} {p : Pose} {i : SlotNo} (h : w.victim p = some i) :
    i ∈ w.recency ∧ ∃ t, w.slot i = .clean t ∧ pinned p t.key = false := by
  refine ⟨List.mem_of_find?_eq_some h, ?_⟩
  have := List.find?_some h
  revert this
  cases w.slot i <;> simp [evictable]

/-- The slot that a request takes is EMPTY or CLEAN: eviction never takes a MARKED, SENT or PENDING slot (R37, R44). -/
theorem TileWindow.slotToTake_some {w : TileWindow} {p : Pose} {i : SlotNo} (h : w.slotToTake p = some i) :
    w.slot i = .empty ∨ ∃ t, w.slot i = .clean t := by
  unfold slotToTake at h
  split at h
  · cases h
    exact .inl (lowestEmpty_some ‹_›)
  · obtain ⟨_, t, ht, _⟩ := victim_some h
    exact .inr ⟨t, ht⟩

theorem TileWindow.holdsMarks_eq_false {w : TileWindow} :
    w.holdsMarks = false ↔ ∀ i, (w.slot i).isMarked = false ∧ (w.slot i).isSent = false := by
  simp [holdsMarks, mem_slotNumbers]

/-- A slot with contents holds a key: its tile's. -/
theorem Slot.key_of_tile {x : Slot} {t : Tile} (h : x.tile? = some t) : x.key? = some t.key := by
  cases x <;> simp_all [Slot.tile?, Slot.key?]

/-! ## Requests and lookups -/

/-- Two states that differ at most in the window, the event flags and the Plan Link. -/
def WindowOnly (s t : State) : Prop := t = { s with twn := t.twn, evu := t.evu, pli := t.pli }

theorem WindowOnly.refl (s : State) : WindowOnly s s := rfl

theorem WindowOnly.trans {s t u : State} (h : WindowOnly s t) (h' : WindowOnly t u) : WindowOnly s u := by
  unfold WindowOnly at *
  rw [h', h]

theorem WindowOnly.pot {s t : State} (h : WindowOnly s t) : t.pot = s.pot := by rw [h]

theorem WindowOnly.tbs {s t : State} (h : WindowOnly s t) : t.tbs = s.tbs := by rw [h]

theorem WindowOnly.mru {s t : State} (h : WindowOnly s t) : t.mru = s.mru := by rw [h]

theorem WindowOnly.mgt {s t : State} (h : WindowOnly s t) : t.mgt = s.mgt := by rw [h]

theorem WindowOnly.rct {s t : State} (h : WindowOnly s t) : t.rct = s.rct := by rw [h]

theorem WindowOnly.rfx {s t : State} (h : WindowOnly s t) : t.rfx = s.rfx := by rw [h]

theorem WindowOnly.dau {s t : State} (h : WindowOnly s t) : t.dau = s.dau := by rw [h]

theorem WindowOnly.dli {s t : State} (h : WindowOnly s t) : t.dli = s.dli := by rw [h]

/-- What a request can do: nothing; open a request in the slot to take; or raise WINDOW_FULL (R43, R44). -/
theorem request_cases (k : TileKey) (s : State) :
    request k s = s ∨
    (∃ i, s.twn.find k = none ∧ s.twn.pendingRequests < 6 ∧ s.twn.slotToTake s.pot.pose = some i ∧
      request k s = openRequest i k s) ∨
    (s.twn.find k = none ∧ s.twn.slotToTake s.pot.pose = none ∧ request k s = raise .windowFull (.key k) s) := by
  unfold request
  split
  · exact .inl rfl
  · rename_i h
    simp only [Bool.or_eq_true, decide_eq_true_eq, not_or, Bool.not_eq_true, Option.isSome_eq_false_iff,
      Option.isNone_iff_eq_none, Nat.not_le] at h
    split
    · exact .inr (.inl ⟨_, h.1, h.2, ‹_›, rfl⟩)
    · exact .inr (.inr ⟨h.1, ‹_›, rfl⟩)

theorem request_windowOnly (k : TileKey) (s : State) : WindowOnly s (request k s) := by
  rcases request_cases k s with h | ⟨i, -, -, -, h⟩ | ⟨-, -, h⟩ <;> rw [h] <;> rfl

theorem request_changes {k : TileKey} {s : State} (hl : k.level = s.pot.pose.level) : Changes s (request k s) := by
  rcases request_cases k s with h | ⟨i, hf, hp, hi, h⟩ | ⟨-, -, h⟩ <;> rw [h]
  · exact .single (.openRequest i k hf hp hl hi)
  · exact .single (.raise _ _)

/-- What a lookup can do: a miss, with a request when the pose is valid; a PENDING slot found; or a hit, whose slot becomes
most-recent (R41, R42). -/
theorem lookup_cases (c : Cell) (s : State) :
    (s.twn.find (c.key s.pot.pose.level) = none ∧
      lookup c s = (none, if s.pot.pose.valid then request (c.key s.pot.pose.level) s else s)) ∨
    (∃ i k at_, s.twn.find (c.key s.pot.pose.level) = some i ∧ s.twn.slot i = .pending k at_ ∧ lookup c s = (none, s)) ∨
    (∃ i t, s.twn.find (c.key s.pot.pose.level) = some i ∧ (s.twn.slot i).tile? = some t ∧
      t.key = c.key s.pot.pose.level ∧ lookup c s = (some t.cells[c.index], { s with twn := s.twn.touch i })) := by
  unfold lookup
  split
  · exact .inl ⟨‹_›, rfl⟩
  · rename_i i hi
    have hk := TileWindow.find_some hi
    right
    cases hs : s.twn.slot i with
    | empty => simp [hs, Slot.key?] at hk
    | pending k t => exact .inl ⟨i, k, t, hi, hs, by simp [Slot.tile?]⟩
    | clean t => exact .inr ⟨i, t, hi, by simp [hs, Slot.tile?], by simpa [hs, Slot.key?] using hk, by simp [Slot.tile?]⟩
    | marked t m => exact .inr ⟨i, t, hi, by simp [hs, Slot.tile?], by simpa [hs, Slot.key?] using hk, by simp [Slot.tile?]⟩
    | sent t m => exact .inr ⟨i, t, hi, by simp [hs, Slot.tile?], by simpa [hs, Slot.key?] using hk, by simp [Slot.tile?]⟩

theorem lookup_windowOnly (c : Cell) (s : State) : WindowOnly s (lookup c s).2 := by
  rcases lookup_cases c s with ⟨-, h⟩ | ⟨_, _, _, -, -, h⟩ | ⟨_, _, -, -, -, h⟩ <;> rw [h]
  · dsimp only
    split
    · exact request_windowOnly _ _
    · rfl
  · rfl
  · rfl

theorem lookup_changes (c : Cell) (s : State) : Changes s (lookup c s).2 := by
  rcases lookup_cases c s with ⟨-, h⟩ | ⟨_, _, _, -, -, h⟩ | ⟨i, t, -, ht, -, h⟩ <;> rw [h]
  · dsimp only
    split
    · exact request_changes rfl
    · exact .refl
  · exact .single (.touch i t ht)

theorem lookupOrOffMap_windowOnly (c : Option Cell) (s : State) : WindowOnly s (lookupOrOffMap c s).2 := by
  cases c with
  | none => rfl
  | some c => exact lookup_windowOnly c s

theorem lookupOrOffMap_changes (c : Option Cell) (s : State) : Changes s (lookupOrOffMap c s).2 := by
  cases c with
  | none => exact .refl
  | some c => exact lookup_changes c s

/-! ## Read-ahead -/

theorem neighbour_level {k n : TileKey} {dc dr : Int} (h : neighbour k dc dr = some n) : n.level = k.level := by
  simp only [neighbour] at h
  split at h
  · cases h
    rfl
  · cases h

/-- Every tile that read-ahead asks for lies on the given level. -/
theorem readAheadKeys_level {level : Nat} {c : Cell} {k : TileKey} (h : k ∈ readAheadKeys level c) : k.level = level := by
  simp only [readAheadKeys, List.mem_append, Option.mem_toList, Option.bind_eq_some_iff] at h
  rcases h with (⟨_, _, h⟩ | ⟨_, _, h⟩) | ⟨_, _, _, _, h⟩ <;> simpa [Cell.key] using neighbour_level h

theorem requests_changes (keys : List TileKey) (s : State) (h : ∀ k ∈ keys, k.level = s.pot.pose.level) :
    Changes s (keys.foldl (fun s k => request k s) s) ∧ WindowOnly s (keys.foldl (fun s k => request k s) s) := by
  induction keys generalizing s with
  | nil => exact ⟨.refl, rfl⟩
  | cons k rest ih =>
    have hw := request_windowOnly k s
    have ⟨hc, hw'⟩ := ih (request k s) (fun k' hk' => by rw [hw.pot]; exact h k' (.tail _ hk'))
    exact ⟨(request_changes (h k (.head _))).trans hc, hw.trans hw'⟩

theorem readAhead_changes (s : State) : Changes s (readAhead s) :=
  (requests_changes _ s (fun _ h => readAheadKeys_level h)).1

theorem readAhead_windowOnly (s : State) : WindowOnly s (readAhead s) :=
  (requests_changes _ s (fun _ h => readAheadKeys_level h)).2

end Sys2Proof.Machine
end

