-- ==== Sys2Proof/Laws/Marks.lean ====
section
/-! SUPPORT. Marks, reports and the Plan Link's arbiter: what each operation does, and that it is a chain of primitive
changes (chapters 3, 4 and 10). -/

namespace Sys2Proof.Machine

/-! ## Sending on the Plan Link -/

theorem sublist_of_eq_cons {α : Type} {l rest : List α} {x : α} (h : l = x :: rest) : rest.Sublist l := by
  rw [h]
  exact List.sublist_cons_self x rest

theorem beginLeaving_changes (f : PlanFrame) (s : State) : Changes s (beginLeaving f s) :=
  .single (.plan _ (List.Sublist.refl _) (List.Sublist.refl _) (List.Sublist.refl _) rfl)

theorem requestStatus_changes (s : State) : Changes s (requestStatus s) :=
  .single (.plan _ (List.Sublist.refl _) (List.Sublist.refl _) (List.Sublist.refl _) rfl)

theorem queueAnswer_changes (x : Selector) (a : Answer) (s : State) : Changes s (queueAnswer x a s) :=
  .single (.plan _ (List.Sublist.refl _) (List.Sublist.refl _) (List.Sublist.refl _) rfl)

theorem sendStatus_changes (s : State) : Changes s (sendStatus s) := by
  have h : Change s { s with pli := { s.pli with statusWaits := false } } :=
    .plan _ (List.Sublist.refl _) (List.Sublist.refl _) (List.Sublist.refl _) rfl
  exact ((Relation.ReflTransGen.single h).tail (.events _)).trans (beginLeaving_changes (.status (statusOf s)) _)

/-- What the turn of the report queue's head can do: its report begins to leave, or, for a key with no MARKED slot, the
key leaves the queue (R70, R71). -/
theorem sendReport_cases (k : TileKey) (rest : List TileKey) (s : State) :
    (∃ i t m, s.twn.find k = some i ∧ s.twn.slot i = .marked t m ∧ t.key = k ∧
      sendReport k rest s = beginLeaving (.report (buildReport t m)) (afterReport i t m rest s)) ∨
    sendReport k rest s = { s with mru := { s.mru with reportQueue := rest } } := by
  simp only [sendReport]
  split
  · exact .inr rfl
  · rename_i i hi
    split
    · rename_i t m hs
      have hk := TileWindow.find_some hi
      rw [hs] at hk
      exact .inl ⟨i, t, m, hi, hs, by simpa [Slot.key?] using hk, rfl⟩
    · exact .inr rfl

theorem sendReport_changes {k : TileKey} {rest : List TileKey} {s : State} (hq : s.mru.reportQueue = k :: rest) :
    Changes s (sendReport k rest s) := by
  rcases sendReport_cases k rest s with ⟨i, t, m, hf, hs, rfl, h⟩ | h <;> rw [h]
  · exact (Relation.ReflTransGen.single (Change.report i t m rest hq hf hs)).trans (beginLeaving_changes _ _)
  · have := Change.loseHead (s := s)
    rw [hq] at this
    exact .single this

theorem chooseFrame_changes (s : State) : Changes s (chooseFrame s) := by
  unfold chooseFrame
  split
  · rename_i f rest h
    exact (Relation.ReflTransGen.single (Change.plan { s.pli with events := rest } (sublist_of_eq_cons h)
      (List.Sublist.refl _) (List.Sublist.refl _) rfl)).trans (beginLeaving_changes _ _)
  split
  · rename_i f rest h
    exact (Relation.ReflTransGen.single (Change.plan { s.pli with retries := rest } (List.Sublist.refl _)
      (sublist_of_eq_cons h) (List.Sublist.refl _) rfl)).trans (beginLeaving_changes _ _)
  split
  · rename_i f rest h
    exact (Relation.ReflTransGen.single (Change.plan { s.pli with answers := rest } (List.Sublist.refl _)
      (List.Sublist.refl _) (List.Sublist.refl _) rfl)).trans (beginLeaving_changes _ _)
  split
  · rename_i k rest h
    exact (Relation.ReflTransGen.single (Change.plan { s.pli with requests := rest } (List.Sublist.refl _)
      (List.Sublist.refl _) (sublist_of_eq_cons h) rfl)).trans (beginLeaving_changes _ _)
  split
  · exact sendReport_changes ‹_›
  split
  · exact sendStatus_changes s
  · exact .refl

theorem arbitrate_changes (s : State) : Changes s (arbitrate s) := by
  unfold arbitrate
  split
  · exact .refl
  · exact chooseFrame_changes s

/-- The blocks that the arbiter's choice leaves alone (R171). -/
theorem chooseFrame_frame (s : State) :
    (chooseFrame s).tbs = s.tbs ∧ (chooseFrame s).pot = s.pot ∧ (chooseFrame s).mgt = s.mgt ∧ (chooseFrame s).rct = s.rct ∧
      (chooseFrame s).rfx = s.rfx ∧ (chooseFrame s).dau = s.dau ∧ (chooseFrame s).dli = s.dli ∧
      (chooseFrame s).snp = s.snp ∧ (chooseFrame s).choices = s.choices ∧ (chooseFrame s).pending = s.pending := by
  have hr : ∀ k rest, (sendReport k rest s).tbs = s.tbs ∧ (sendReport k rest s).pot = s.pot ∧
      (sendReport k rest s).mgt = s.mgt ∧ (sendReport k rest s).rct = s.rct ∧ (sendReport k rest s).rfx = s.rfx ∧
      (sendReport k rest s).dau = s.dau ∧ (sendReport k rest s).dli = s.dli ∧ (sendReport k rest s).snp = s.snp ∧
      (sendReport k rest s).choices = s.choices ∧ (sendReport k rest s).pending = s.pending := by
    intro k rest
    rcases sendReport_cases k rest s with ⟨i, t, m, _, _, _, h⟩ | h <;> rw [h] <;> simp
  unfold chooseFrame
  split
  · simp
  split
  · simp
  split
  · simp
  split
  · simp
  split
  · exact hr _ _
  split <;> simp

/-- The blocks that the arbiter leaves alone at the end of a command (R171). -/
theorem arbitrate_frame (s : State) :
    (arbitrate s).tbs = s.tbs ∧ (arbitrate s).pot = s.pot ∧ (arbitrate s).mgt = s.mgt ∧ (arbitrate s).rct = s.rct ∧
      (arbitrate s).rfx = s.rfx ∧ (arbitrate s).dau = s.dau ∧ (arbitrate s).dli = s.dli ∧
      (arbitrate s).snp = s.snp ∧ (arbitrate s).choices = s.choices ∧ (arbitrate s).pending = s.pending := by
  unfold arbitrate
  split
  · simp
  · exact chooseFrame_frame s

@[simp] theorem arbitrate_tbs (s : State) : (arbitrate s).tbs = s.tbs := (arbitrate_frame s).1

@[simp] theorem arbitrate_pot (s : State) : (arbitrate s).pot = s.pot := (arbitrate_frame s).2.1

@[simp] theorem arbitrate_mgt (s : State) : (arbitrate s).mgt = s.mgt := (arbitrate_frame s).2.2.1

@[simp] theorem arbitrate_rct (s : State) : (arbitrate s).rct = s.rct := (arbitrate_frame s).2.2.2.1

@[simp] theorem arbitrate_rfx (s : State) : (arbitrate s).rfx = s.rfx := (arbitrate_frame s).2.2.2.2.1

@[simp] theorem arbitrate_dau (s : State) : (arbitrate s).dau = s.dau := (arbitrate_frame s).2.2.2.2.2.1

@[simp] theorem arbitrate_dli (s : State) : (arbitrate s).dli = s.dli := (arbitrate_frame s).2.2.2.2.2.2.1

@[simp] theorem arbitrate_snp (s : State) : (arbitrate s).snp = s.snp := (arbitrate_frame s).2.2.2.2.2.2.2.1

/-! ## Marks lists -/

/-- When a mark meets the building of a LIST of eight (R72). -/
theorem Marks.meetsFullReport_iff {m : Marks} {now : Time} {c : CellIndex} :
    m.meetsFullReport now c = true ↔ m.eightSentAt = some now ∧ ∀ q ∈ m.records, q.cell ≠ c := by
  simp [Marks.meetsFullReport]

/-- What a mark does to the marks list of a SENT slot: the overflow flag alone, or what it does to any list (R64, R72). -/
theorem Marks.addSent_cases (now : Time) (m : Marks) (r : MarkRecord) :
    (m.meetsFullReport now r.cell = true ∧ m.addSent now r = { m with overflow := true }) ∨
    (m.meetsFullReport now r.cell = false ∧ m.addSent now r = m.add r) := by
  unfold Marks.addSent
  cases m.meetsFullReport now r.cell <;> simp

/-! ## Mark requests -/

/-- What a located mark can do: be dropped on a miss; be refused by the marking conditions after a hit; or be recorded in
the slot hit (R61, R62, R64, R66). -/
theorem placeMark_cases (kind : MarkKind) (cls : CellClass) (c : Cell) (stale : Bool) (s : State) :
    ((lookup c s).1 = none ∧
      placeMark kind cls c stale s = dropMark kind (c.key s.pot.pose.level) (lookup c s).2) ∨
    (∃ i t, s.twn.find (c.key s.pot.pose.level) = some i ∧ (s.twn.slot i).tile? = some t ∧
      lookup c s = (some t.cells[c.index], { s with twn := s.twn.touch i }) ∧
      ((mayMark s.tbs.response t.cells[c.index] cls = false ∧
          placeMark kind cls c stale s = { s with twn := s.twn.touch i }) ∨
        (mayMark s.tbs.response t.cells[c.index] cls = true ∧
          placeMark kind cls c stale s =
            recordMark i { cell := c.index, cls := cls, kind := kind, stale := stale, sent := false }
              { s with twn := s.twn.touch i }))) := by
  rcases lookup_cases c s with ⟨-, h⟩ | ⟨_, _, _, -, -, h⟩ | ⟨i, t, hf, ht, -, h⟩
  · exact .inl ⟨by rw [h], by simp [placeMark, h]⟩
  · exact .inl ⟨by rw [h], by simp [placeMark, h]⟩
  · refine .inr ⟨i, t, hf, ht, h, ?_⟩
    have hf' : (s.twn.touch i).find (c.key s.pot.pose.level) = some i := hf
    by_cases hm : mayMark s.tbs.response t.cells[c.index] cls = true
    · exact .inr ⟨hm, by simp only [placeMark, h, hm, hf', if_true]⟩
    · exact .inl ⟨by simpa only [Bool.not_eq_true] using hm, by simp only [placeMark, h, hm, if_false, Bool.false_eq_true]⟩

theorem placeMark_changes (kind : MarkKind) (cls : CellClass) (c : Cell) (stale : Bool) (s : State) :
    Changes s (placeMark kind cls c stale s) := by
  rcases placeMark_cases kind cls c stale s with ⟨-, h⟩ | ⟨i, t, -, ht, -, ⟨-, h⟩ | ⟨hm, h⟩⟩ <;> rw [h]
  · exact (lookup_changes c s).trans ((Relation.ReflTransGen.single .dropped).tail (.raise _ _))
  · exact .single (.touch i t ht)
  · exact (Relation.ReflTransGen.single (Change.touch i t ht)).tail (.mark i t _ ht rfl hm)

/-- What a mark request can do: nothing, or place its mark at its point with the learn table's class (R60). -/
theorem requestMark_cases (h : Hazard) (age : Nat) (s : State) :
    (requestMark h age s = s ∧ (s.pot.pose.valid = false ∨ s.tbs.learn.entry h.kind = none)) ∨
    (s.pot.pose.valid = true ∧ ∃ cls, s.tbs.learn.entry h.kind = some cls ∧
      requestMark h age s = placeMark h.kind cls (markPoint s age h).1 (markPoint s age h).2 s) := by
  unfold requestMark
  split
  · split
    · exact .inl ⟨rfl, .inr ‹_›⟩
    · exact .inr ⟨‹_›, _, ‹_›, rfl⟩
  · rename_i hv
    exact .inl ⟨rfl, .inl (by simpa using hv)⟩

theorem requestMark_changes (h : Hazard) (age : Nat) (s : State) : Changes s (requestMark h age s) := by
  rcases requestMark_cases h age s with ⟨e, -⟩ | ⟨-, cls, -, e⟩ <;> rw [e]
  exact placeMark_changes _ _ _ _ s

/-- Two states that differ at most in the window, the MRU, the event flags and the Plan Link. -/
def MapOnly (s t : State) : Prop := t = { s with twn := t.twn, mru := t.mru, evu := t.evu, pli := t.pli }

theorem MapOnly.refl (s : State) : MapOnly s s := rfl

theorem MapOnly.trans {s t u : State} (h : MapOnly s t) (h' : MapOnly t u) : MapOnly s u := by
  unfold MapOnly at *
  rw [h', h]

theorem WindowOnly.mapOnly {s t : State} (h : WindowOnly s t) : MapOnly s t := by
  unfold WindowOnly at h
  unfold MapOnly
  rw [h]

theorem MapOnly.pot {s t : State} (h : MapOnly s t) : t.pot = s.pot := by rw [h]

theorem MapOnly.tbs {s t : State} (h : MapOnly s t) : t.tbs = s.tbs := by rw [h]

theorem MapOnly.mgt {s t : State} (h : MapOnly s t) : t.mgt = s.mgt := by rw [h]

theorem MapOnly.rct {s t : State} (h : MapOnly s t) : t.rct = s.rct := by rw [h]

theorem MapOnly.rfx {s t : State} (h : MapOnly s t) : t.rfx = s.rfx := by rw [h]

theorem MapOnly.dau {s t : State} (h : MapOnly s t) : t.dau = s.dau := by rw [h]

theorem MapOnly.dli {s t : State} (h : MapOnly s t) : t.dli = s.dli := by rw [h]

theorem MapOnly.snp {s t : State} (h : MapOnly s t) : t.snp = s.snp := by rw [h]

theorem offerReport_mapOnly (k : TileKey) (s : State) : MapOnly s (offerReport k s) := by
  unfold offerReport
  split <;> rfl

theorem recordMark_mapOnly (i : SlotNo) (r : MarkRecord) (s : State) : MapOnly s (recordMark i r s) := by
  unfold recordMark
  split <;> first
    | rfl
    | exact MapOnly.trans (t := { s with twn := _, mru := _ }) rfl (offerReport_mapOnly _ _)

theorem placeMark_mapOnly (kind : MarkKind) (cls : CellClass) (c : Cell) (stale : Bool) (s : State) :
    MapOnly s (placeMark kind cls c stale s) := by
  rcases placeMark_cases kind cls c stale s with ⟨-, h⟩ | ⟨i, t, -, ht, -, ⟨-, h⟩ | ⟨hm, h⟩⟩ <;> rw [h]
  · exact (lookup_windowOnly c s).mapOnly.trans (show MapOnly _ (dropMark _ _ _) from rfl)
  · rfl
  · exact (show MapOnly s { s with twn := s.twn.touch i } from rfl).trans (recordMark_mapOnly _ _ _)

theorem requestMark_mapOnly (h : Hazard) (age : Nat) (s : State) : MapOnly s (requestMark h age s) := by
  rcases requestMark_cases h age s with ⟨e, -⟩ | ⟨-, cls, -, e⟩ <;> rw [e]
  · rfl
  · exact placeMark_mapOnly _ _ _ _ s

/-! ## Refusals -/

theorem refuseMarked_changes {i : SlotNo} {t : Tile} {m : Marks} {s : State} (x : RefusedFrame)
    (h : s.twn.slot i = .marked t m) : Changes s (refuseMarked x t s) := by
  refine (Relation.ReflTransGen.single (Change.retry _)).tail (.offer i t m ?_)
  unfold queueRetry
  split <;> exact h

theorem refuseStale_changes (t : Tile) (s : State) : Changes s (refuseStale t s) := .single (.retry _)

/-! ## Frames taken -/

/-- What a Plan Link frame can do: be counted and discarded, or be taken, with the arbiter's choice (R169, R170). -/
theorem takePlan_cases (i : Instr) (act : State → State) (s : State) :
    ((s.rct.state = .loading ∨ i.wellFormed = false) ∧ takePlan i act s = countPlanError s) ∨
    (s.rct.state ≠ .loading ∧ i.wellFormed = true ∧ takePlan i act s = arbitrate (act s)) := by
  unfold takePlan
  split
  · rename_i h
    exact .inl ⟨by simpa using h, rfl⟩
  · rename_i h
    simp only [Bool.or_eq_true, decide_eq_true_eq, Bool.not_eq_true', not_or, Bool.not_eq_false] at h
    exact .inr ⟨h.1, h.2, rfl⟩

/-- What a frame of another line can do: be discarded in LOADING, be counted and discarded, or be taken (R166). -/
theorem takeLine_cases (l : Line) (i : Instr) (act : State → State) (s : State) :
    (s.rct.state = .loading ∧ takeLine l i act s = s) ∨
    (s.rct.state ≠ .loading ∧ i.wellFormed = true ∧ takeLine l i act s = arbitrate (act s)) ∨
    (s.rct.state ≠ .loading ∧ i.wellFormed = false ∧ takeLine l i act s = countLineError l s) := by
  unfold takeLine
  split
  · exact .inl ⟨‹_›, rfl⟩
  split
  · exact .inr (.inl ⟨‹_›, ‹_›, rfl⟩)
  · exact .inr (.inr ⟨‹_›, by simpa using ‹¬i.wellFormed = true›, rfl⟩)

theorem takePlan_changes {i : Instr} {act : State → State} {s : State}
    (h : s.rct.state ≠ .loading → i.wellFormed = true → Changes s (act s)) : Changes s (takePlan i act s) := by
  rcases takePlan_cases i act s with ⟨-, e⟩ | ⟨hl, hw, e⟩ <;> rw [e]
  · exact .single .planError
  · exact (h hl hw).trans (arbitrate_changes _)

theorem takeLine_changes {l : Line} {i : Instr} {act : State → State} {s : State}
    (h : s.rct.state ≠ .loading → i.wellFormed = true → Changes s (act s)) : Changes s (takeLine l i act s) := by
  rcases takeLine_cases l i act s with ⟨-, e⟩ | ⟨hl, hw, e⟩ | ⟨-, -, e⟩ <;> rw [e]
  · exact (h hl hw).trans (arbitrate_changes _)
  · exact .single (.lineError l)

end Sys2Proof.Machine
end

