-- ==== Sys2Proof/Laws/Motion.lean ====
section
/-! SUPPORT. The Motion Gate, the mode commands and the Drive Link: what each operation changes (chapters 5, 6 and 9). -/

namespace Sys2Proof.Machine

/-! ## The gate computation -/

theorem scanFrom_frame (heading left k : Nat) (s : State) :
    WindowOnly s (scanFrom heading left k s).2 ∧ Changes s (scanFrom heading left k s).2 := by
  induction left generalizing k s with
  | zero => exact ⟨rfl, .refl⟩
  | succ left ih =>
    have hw := lookupOrOffMap_windowOnly (sampleCell s heading k) s
    have hc := lookupOrOffMap_changes (sampleCell s heading k) s
    rw [scanFrom]
    generalize lookupOrOffMap (sampleCell s heading k) s = r at hw hc
    split
    · exact ⟨hw, hc⟩
    · exact ⟨hw.trans (ih _ _).1, hc.trans (ih _ _).2⟩

theorem scan_frame (vc : Int) (s : State) : WindowOnly s (scan vc s).2 ∧ Changes s (scan vc s).2 := by
  unfold scan
  split
  · exact scanFrom_frame _ _ _ s
  · exact ⟨rfl, .refl⟩

theorem lookupCentre_frame (s : State) : WindowOnly s (lookupCentre s).2 ∧ Changes s (lookupCentre s).2 := by
  unfold lookupCentre
  split
  · exact ⟨lookup_windowOnly _ s, lookup_changes _ s⟩
  · exact ⟨rfl, .refl⟩

theorem spin_frame (srcL srcR vL vR : Int) (s : State) :
    WindowOnly s (spin srcL srcR vL vR s).2 ∧ Changes s (spin srcL srcR vL vR s).2 := by
  simp only [spin]
  split
  · exact lookupCentre_frame s
  · exact ⟨rfl, .refl⟩

theorem travel_frame (srcL srcR vL vR : Int) (s : State) :
    WindowOnly s (travel srcL srcR vL vR s).2 ∧ Changes s (travel srcL srcR vL vR s).2 := by
  have h := scan_frame (centreSpeed vL vR) s
  have h' := lookupCentre_frame (scan (centreSpeed vL vR) s).2
  exact ⟨h.1.trans h'.1, h.2.trans h'.2⟩

/-- The gate computation changes the window alone, by its lookups (R91, R93, R95). -/
theorem gateCompute_frame (s : State) : WindowOnly s (gateCompute s).2 ∧ Changes s (gateCompute s).2 := by
  unfold gateCompute
  split
  · exact ⟨rfl, .refl⟩
  · dsimp only
    split
    · exact spin_frame _ _ _ _ s
    · exact travel_frame _ _ _ _ s

/-! ## Segments -/

theorem takeHead_rct (s : State) : (takeHead s).rct = s.rct := by
  unfold takeHead
  split <;> rfl

theorem takeAtExpiry_changes (s : State) : Changes s (takeAtExpiry s) := by
  unfold takeAtExpiry
  split
  · rw [← takeHead_rct s]
    exact (Relation.ReflTransGen.single .takeHead).tail .stepTaken
  · exact .refl

/-- What a completion can do: STEP ends in HOLD; the robot starves; or the successor is taken (R84). -/
theorem completeSegment_changes (g : Segment) (s : State) : Changes s (completeSegment g s) := by
  simp only [completeSegment]
  split
  · exact (Relation.ReflTransGen.single (.complete s.mgt.starved)).tail (.run .hold rfl)
  split
  · exact (Relation.ReflTransGen.single (.complete true)).tail (.raise _ _)
  · exact (Relation.ReflTransGen.single (.complete s.mgt.starved)).tail .takeHead

theorem progressSegment_changes {c c' : CurrentSegment} {s : State} (h : s.mgt.current = some c)
    (hc : c'.segment = c.segment) : Changes s (progressSegment c' s) := by
  unfold progressSegment
  split
  · exact completeSegment_changes _ s
  · exact .single (.progress c c' h hc)

theorem segmentTravel_changes (figure : Nat) (s : State) : Changes s (segmentTravel figure s) := by
  unfold segmentTravel
  split
  · rename_i c hc
    split
    · exact progressSegment_changes hc rfl
    · exact .refl
  · exact .refl

theorem segmentElapsed_changes (length : Nat) (s : State) : Changes s (segmentElapsed length s) := by
  unfold segmentElapsed
  split
  · rename_i c hc
    split
    · exact progressSegment_changes hc rfl
    · exact .refl
  · exact .refl

/-! ## The Drive Link -/

/-- Sending a frame leaves the brush record and the error count as they were (R157). -/
theorem sendDrive_dli (f : DriveFrame) (s : State) :
    (sendDrive f s).dli.reservation = s.dli.reservation ∧ (sendDrive f s).dli.pendingBrush = s.dli.pendingBrush ∧
      (sendDrive f s).dli.errors = s.dli.errors ∧ (sendDrive f s).dli.brushState = s.dli.brushState ∧
      (sendDrive f s).dli.lastWish = s.dli.lastWish ∧ (sendDrive f s).dli.lastSetpoints = s.dli.lastSetpoints ∧
      (sendDrive f s).dli.watch = s.dli.watch := by
  unfold sendDrive
  cases s.dli.leaving <;> simp

theorem sendDrive_changes (f : DriveFrame) (s : State) : Changes s (sendDrive f s) := by
  have h := sendDrive_dli f s
  refine .single (.drive (sendDrive f s).dli h.1 h.2.1 h.2.2.1 fun _ e => ?_)
  unfold sendDrive at e
  cases hl : s.dli.leaving <;> simp [hl] at e

theorem sendSetpoint_changes (vL vR : Int) (s : State) : Changes s (sendSetpoint vL vR s) :=
  (Relation.ReflTransGen.single
    (Change.drive { s.dli with lastSetpoints := (vL, vR) } rfl rfl rfl id)).trans (sendDrive_changes _ _)

theorem sendZero_changes (s : State) : Changes s (sendZero s) := sendSetpoint_changes 0 0 s

theorem takeWish_changes (w : BrushState) (s : State) : Changes s (takeWish w s) := by
  have h0 : Changes s { s with dli := { s.dli with lastWish := w } } := .single (.drive _ rfl rfl rfl id)
  simp only [takeWish]
  split
  · split
    · exact h0.trans (sendDrive_changes _ _)
    · exact h0.tail (.command w)
  · rename_i r hr
    exact (h0.tail (.hold w r hr)).trans (sendDrive_changes _ _)

theorem brushReport_changes (b : BrushState) (s : State) : Changes s (brushReport b s) := by
  have h0 : Changes s { s with dli := { s.dli with brushState := b } } := .single (.drive _ rfl rfl rfl id)
  simp only [brushReport]
  split
  · exact h0
  · split
    · split
      · rename_i p hp
        exact h0.tail (.command p)
      · rename_i hp
        exact h0.tail (.release hp)
    · exact h0

theorem expireBrush_changes (b : BrushState) (s : State) : Changes s (expireBrush b s) := by
  show Changes s (sendBrushCommand _ (raise _ _ s))
  exact (Relation.ReflTransGen.single (.raise _ _)).tail (.command _)

/-! ## Mode commands -/

theorem takeStart_changes (s : State) : Changes s (takeStart s) := by
  unfold takeStart
  split
  · exact .single (.run .run rfl)
  · exact .single (.raise _ _)

theorem takeStep_changes (s : State) : Changes s (takeStep s) := by
  unfold takeStep
  split
  · exact .single (.run .hold rfl)
  · exact .single (.step _)

theorem takeHold_changes (s : State) : Changes s (takeHold s) := by
  unfold takeHold
  split
  · exact (Relation.ReflTransGen.single (.run .hold rfl)).tail (.raise _ _)
  · exact .single (.run .hold rfl)

/-- The RCT's take at an expiry (R109). -/
theorem takeMode_changes (s : State) : Changes s (takeMode s) := by
  unfold takeMode
  split
  · exact .refl
  · rename_i c rest hq
    have h0 : Change s { s with rct := { s.rct with modeQueue := rest } } := by
      have := Change.popMode (s := s)
      rwa [hq] at this
    dsimp only
    split
    · rename_i hl
      rcases c with ⟨kind, factor⟩
      cases kind with
      | hold => exact .head h0 (takeHold_changes _)
      | resume => exact .head h0 (.single (.run .run rfl))
      | creep => exact .single (.creep _ rest hq rfl)
      | step => exact .head h0 (takeStep_changes _)
      | returnHome => exact .head h0 (.single (.run .homing rfl))
      | undock =>
        refine .head h0 (.single (.undock ?_))
        revert hl
        cases s.rct.state <;> simp [legal]
      | stop => exact .head h0 ((Relation.ReflTransGen.single .discard).tail (.run .idle rfl))
    · exact .head h0 (.single (.raise _ _))

end Sys2Proof.Machine
end

