-- ==== Sys2Proof/Laws/Reflex.lean ====
section
/-! SUPPORT. The Reflex Unit and the Dock Approach Unit: each operation is a chain of primitive changes (chapters 7 and 8). -/

namespace Sys2Proof.Machine

/-! ## Firing -/

theorem haltFor_changes (h : Hazard) {s : State} (hs : s.rct.state ≠ .reflex) : Changes s (haltFor h s) :=
  (Relation.ReflTransGen.single (Change.halt h hs)).trans (sendZero_changes _)

theorem enterReflex_changes (h : Hazard) (age : Nat) {s : State} (hs : s.rct.state ≠ .reflex) :
    Changes s (enterReflex h age s) := by
  have h1 : Changes s (raiseHazard h (some (discardCount s)) (haltFor h s)) :=
    (haltFor_changes h hs).tail (.raise _ _)
  simp only [enterReflex]
  split
  · exact (h1.tail (.raise _ _)).trans (requestMark_changes _ _ _)
  · exact h1.trans (requestMark_changes _ _ _)

theorem abortReflex_changes (h : Hazard) (age : Nat) (s : State) : Changes s (abortReflex h age s) :=
  (((((sendZero_changes s).tail (.run .hold rfl)).tail (.raise _ _)).tail (.raise _ _))).trans (requestMark_changes _ _ _)

/-- What a firing can do: a later input's event and mark; an event alone; a reflex entry; a second cause; or nothing
(R124, R125). -/
theorem fire_cases (h : Hazard) (age : Nat) (entry : Option Nat) (s : State) :
    (∃ d, entry = some d ∧ fire h age entry s = (requestMark h age (raiseHazard h (some d) s), some d)) ∨
    (entry = none ∧ (s.rct.state = .idle ∨ s.rct.state = .hold ∨ s.rct.state = .docked) ∧
      fire h age entry s = (raiseHazard h none s, none)) ∨
    (entry = none ∧ (s.rct.state.moving ∨ s.rct.state = .undocking ∨ s.rct.state = .approach) ∧
      fire h age entry s = (enterReflex h age s, some (discardCount s))) ∨
    (entry = none ∧ s.rct.state = .reflex ∧ fire h age entry s = (abortReflex h age s, none)) ∨
    (entry = none ∧ mayFire s = false ∧ fire h age entry s = (s, none)) := by
  cases entry with
  | some d => exact .inl ⟨d, rfl, rfl⟩
  | none => unfold fire mayFire; cases s.rct.state <;> simp [RunState.moving]

theorem fire_changes (h : Hazard) (age : Nat) (entry : Option Nat) (s : State) : Changes s (fire h age entry s).1 := by
  rcases fire_cases h age entry s with ⟨d, -, e⟩ | ⟨-, -, e⟩ | ⟨-, hs, e⟩ | ⟨-, -, e⟩ | ⟨-, -, e⟩ <;> rw [e]
  · exact .head (.raise _ _) (requestMark_changes _ _ _)
  · exact .single (.raise _ _)
  · refine enterReflex_changes h age ?_
    rcases hs with hs | hs | hs
    · intro hr
      simp [hr, RunState.moving] at hs
    · simp [hs]
    · simp [hs]
  · exact abortReflex_changes h age s

/-! ## Docking -/

/-- A change to HOLD from APPROACH drops the DAU's record, whatever it was (R143). -/
theorem changeRun_hold_withDock (d : DockUnit) {s : State} (hs : s.rct.state = .approach) :
    changeRun .hold (withDock d s) = changeRun .hold s := by
  simp [changeRun, withDock, hs, RunState.docking]

theorem failApproach_changes (r : DockFailure) (d : DockUnit) {s : State} (hs : s.rct.state = .approach) :
    Changes s (failApproach r (withDock d s)) := by
  unfold failApproach
  rw [changeRun_hold_withDock d hs]
  exact (Relation.ReflTransGen.single (.run .hold rfl)).tail (.raise _ _)

theorem failApproach_changes' (r : DockFailure) (s : State) : Changes s (failApproach r s) :=
  (Relation.ReflTransGen.single (.run .hold rfl)).tail (.raise _ _)

theorem dockBump_changes {s : State} (hs : s.rct.state = .approach) : Changes s (dockBump s) := by
  simp only [dockBump]
  split
  · exact (sendZero_changes s).trans (failApproach_changes' _ _)
  · exact (sendZero_changes s).tail (.dock _ (.halt hs))

theorem approachBump_changes (side : Side) (contact : Bool) {s : State} (hs : s.rct.state = .approach) :
    Changes s (approachBump side contact s) := by
  unfold approachBump
  split
  · exact .refl
  · exact .head .bumpCount (.head (.raise _ _) (dockBump_changes hs))

theorem beginBumpReverse_changes (s : State) : Changes s (beginBumpReverse s) := by
  unfold beginBumpReverse
  split
  · exact .single (.dock _ (.back ‹_›))
  · exact .refl

theorem endBumpReverse_changes {s : State} (h : s.dau.phase = .bumpReverse) : Changes s (endBumpReverse s) :=
  .single (.dock _ (.resume h))

theorem endUndock_changes (s : State) : Changes s (endUndock s) := .single (.run .hold rfl)

theorem snapLevel_changes {level : Nat} {s : State} (h : level = s.tbs.dock.level) : Changes s (snapLevel level s) := by
  unfold snapLevel
  split
  · exact .refl
  split
  · exact .single (.raise _ _)
  · exact .single (.level level (by simpa using ‹¬s.twn.holdsMarks = true›) (.inr h))

theorem dockSnap_changes (s : State) : Changes s (dockSnap s) :=
  .head .snap ((snapLevel_changes rfl).trans ((Relation.ReflTransGen.single (.validity true)).tail .emptyHistory))

theorem dock_changes (s : State) : Changes s (dock s) :=
  ((dockSnap_changes s).tail (.run .docked rfl)).tail (.raise _ _)

theorem judgeContact_changes (f : SenseFrame) {s : State} (hs : s.rct.state = .approach) (hp : s.dau.phase = .contact) :
    Changes s (judgeContact f s) := by
  unfold judgeContact
  split
  · exact .single (.dock _ (.contactLost hp))
  split
  · split
    · exact dock_changes s
    · exact failApproach_changes' _ s
  · dsimp only
    split
    · exact failApproach_changes _ _ hs
    · exact .single (.dock _ (.wait _ (by omega)))

theorem countContact_changes (f : SenseFrame) {s : State} (hs : s.rct.state = .approach)
    (hp : s.dau.phase = .track ∨ s.dau.phase = .search) : Changes s (countContact f s) := by
  unfold countContact
  split
  · exact .single (.dock _ (.count 0 (by omega)))
  split
  · exact .head (.dock _ (.contact hp)) (judgeContact_changes f hs rfl)
  · exact .single (.dock _ (.count _ (by omega)))

theorem observeTrack_changes (o : Option Sector) {s : State} (hp : s.dau.phase = .track) :
    Changes s (observeTrack o s) := by
  cases o with
  | none => exact .refl
  | some x => exact .single (.dock _ (.observe x hp))

theorem observeOnly_changes (o : Option Sector) (s : State) : Changes s (observeOnly o s) := by
  cases o with
  | none => exact .refl
  | some x => exact .single (.dock _ (.note x))

theorem searchTurn_changes (yaw : Int) {s : State} (hs : s.rct.state = .approach) : Changes s (searchTurn yaw s) := by
  simp only [searchTurn]
  split
  · exact failApproach_changes _ _ hs
  · exact .single (.dock _ (.turn _ (by omega)))

theorem judgeContact_search {f : SenseFrame} {s : State} (hp : s.dau.phase = .contact) :
    (judgeContact f s).dau.phase ≠ .search := by
  unfold judgeContact
  split
  · simp
  split
  · split
    · simp only [dock, raise_dau, changeRun, idleDock]
      have hd : (dockSnap s).dau = s.dau := by
        simp only [dockSnap, emptyHistory_dau, withPose_dau, snapLevel]
        split
        · simp
        split <;> simp
      split <;> simp [hd, hp]
    · simp only [failApproach, raise_dau, changeRun, idleDock]
      split <;> simp [hp]
  · dsimp only
    split
    · simp only [failApproach, raise_dau, changeRun, idleDock]
      split <;> simp [hp]
    · simp [hp]

theorem countContact_search {f : SenseFrame} {s : State} (h : (countContact f s).dau.phase = .search) :
    (countContact f s).rct = s.rct := by
  unfold countContact at *
  split
  · rfl
  split
  · rename_i h1 h2
    rw [if_neg h1, if_pos h2] at h
    exact absurd h (judgeContact_search rfl)
  · rfl

theorem searchFrame_changes (f : SenseFrame) {s : State} (hs : s.rct.state = .approach) (hp : s.dau.phase = .search) :
    Changes s (searchFrame f s) := by
  unfold searchFrame
  split
  · exact .single (.dock _ (.found _ hp))
  · dsimp only
    split
    · rename_i h
      exact (countContact_changes f hs (.inr hp)).trans
        (searchTurn_changes _ (by rw [countContact_search h]; exact hs))
    · exact countContact_changes f hs (.inr hp)

theorem watchContact_changes (f : SenseFrame) (s : State) : Changes s (watchContact f s) := by
  unfold watchContact
  split
  · exact .single (.dock _ (.count 0 (by omega)))
  split
  · exact (Relation.ReflTransGen.single (.run .hold rfl)).tail (.raise _ _)
  · exact .single (.dock _ (.count _ (by omega)))

theorem approachFrame_changes (f : SenseFrame) {s : State} (hs : s.rct.state = .approach) :
    Changes s (approachFrame f s) := by
  unfold approachFrame
  split
  · rename_i hp
    cases ho : observation s f with
    | none => exact countContact_changes f hs (.inl hp)
    | some x => exact .head (.dock _ (.observe x hp)) (countContact_changes f hs (.inl hp))
  · exact searchFrame_changes f hs ‹_›
  · rename_i hp
    cases ho : observation s f with
    | none => exact judgeContact_changes f hs hp
    | some x => exact .head (.dock _ (.note x)) (judgeContact_changes f hs hp)
  · exact observeOnly_changes _ s
  · exact observeOnly_changes _ s
  · exact .refl

theorem dockFrame_changes (f : SenseFrame) (s : State) : Changes s (dockFrame f s) := by
  unfold dockFrame
  split
  · split
    · exact .single (.handOver ‹_›)
    · exact .refl
  · exact approachFrame_changes f ‹_›
  · exact watchContact_changes f s
  · exact .refl

/-! ## A sense frame's hazard fields -/

theorem rearmSense_changes (f : SenseFrame) (s : State) : Changes s (rearmSense f s) := .single (.armed _)

theorem dropInput_changes (f : SenseFrame) (s : State) : Changes s (dropInput f s).1 := by
  simp only [dropInput]
  split
  · exact .head (.armed _) (fire_changes _ _ _ _)
  split
  · exact .head (.armed _) (fire_changes _ _ _ _)
  · exact .single (.armed _)

theorem bumperInput_changes (f : SenseFrame) (entry : Option Nat) (s : State) :
    Changes s (bumperInput f entry s).1 := by
  simp only [bumperInput]
  split
  · exact .single (.armed _)
  split
  · rename_i h
    simp only [Bool.and_eq_true, decide_eq_true_eq] at h
    exact .head (.armed _) (approachBump_changes _ _ h.1)
  · exact .head (.armed _) (fire_changes _ _ _ _)

theorem noEdgeNear_frame (cells : List (Option Cell)) (s : State) :
    WindowOnly s (noEdgeNear cells s).2 ∧ Changes s (noEdgeNear cells s).2 := by
  induction cells generalizing s with
  | nil => exact ⟨rfl, .refl⟩
  | cons c rest ih =>
    have hw := lookupOrOffMap_windowOnly c s
    have hc := lookupOrOffMap_changes c s
    rw [noEdgeNear]
    generalize lookupOrOffMap c s = r at hw hc
    split
    · exact ⟨hw, hc⟩
    split
    · exact ⟨hw, hc⟩
    · exact ⟨hw.trans (ih _).1, hc.trans (ih _).2⟩

/-- The judgement of trust changes the window alone, by its lookups (R133). -/
theorem judgeTrust_frame (x : CliffSensor) (s : State) :
    WindowOnly s (judgeTrust x s).2 ∧ Changes s (judgeTrust x s).2 := by
  unfold judgeTrust
  split
  · dsimp only
    have hw := lookup_windowOnly
      (offsetCell s.pot.pose.base (sensorOffset s.tbs.cal x).1 (sensorOffset s.tbs.cal x).2) s
    have hc := lookup_changes
      (offsetCell s.pot.pose.base (sensorOffset s.tbs.cal x).1 (sensorOffset s.tbs.cal x).2) s
    generalize lookup _ s = r at hw hc
    split
    · exact ⟨hw, hc⟩
    split
    · exact ⟨hw.trans (noEdgeNear_frame _ _).1, hc.trans (noEdgeNear_frame _ _).2⟩
    · exact ⟨hw, hc⟩
  · exact ⟨rfl, .refl⟩

theorem judgesTrust_keeps {r : RunState} (h : judgesTrust r = true) : r.keepsSuspicion = true := by
  cases r <;> simp_all [judgesTrust, RunState.keepsSuspicion, RunState.moving]

theorem cliffInput_changes (f : SenseFrame) (x : CliffSensor) (entry : Option Nat) (s : State) :
    Changes s (cliffInput f x entry s).1 := by
  simp only [cliffInput]
  split
  · exact .single (.armed _)
  split
  · exact .refl
  split
  · rename_i h
    simp only [Bool.and_eq_true] at h
    have ht := judgeTrust_frame x (withCliffArmed x false s)
    split
    · refine .head (.armed _) (ht.2.tail (.suspect x _ fun _ => ?_))
      rw [ht.1.rct]
      exact judgesTrust_keeps h.2
    · exact .head (.armed _) (ht.2.trans (fire_changes _ _ _ _))
  · exact .head (.armed _) (fire_changes _ _ _ _)

theorem judgeSuspect_changes (f : SenseFrame) (x : CliffSensor) (entry : Option Nat) (s : State) :
    Changes s (judgeSuspect f x entry s).1 := by
  unfold judgeSuspect
  split
  · exact .refl
  split
  · exact .head (.suspect x none (by simp)) (.head (.armed _) (.single (.raise _ _)))
  split
  · exact .head (.suspect x none (by simp)) (fire_changes _ _ _ _)
  · exact .refl

theorem fold_changes {α : Type} (step : State × Option Nat → α → State × Option Nat)
    (h : ∀ r x, Changes r.1 (step r x).1) (xs : List α) (r : State × Option Nat) : Changes r.1 (xs.foldl step r).1 := by
  induction xs generalizing r with
  | nil => exact .refl
  | cons x rest ih => exact (h r x).trans (ih (step r x))

theorem fireSense_changes (f : SenseFrame) (s : State) : Changes s (fireSense f s) :=
  (dropInput_changes f s).trans ((bumperInput_changes f _ _).trans
    ((fold_changes _ (fun r x => cliffInput_changes f x r.2 r.1) cliffSensors _).trans
      (fold_changes _ (fun r x => judgeSuspect_changes f x r.2 r.1) cliffSensors _)))

theorem enterLifted_changes (s : State) : Changes s (enterLifted s) :=
  ((Relation.ReflTransGen.single Change.discard).tail (.run .lifted rfl)).trans
    ((sendZero_changes _).tail (.raise _ _))

theorem endLifted_changes (s : State) : Changes s (endLifted s) :=
  .head (.run .hold rfl) (.head (.validity false) (.single (.raise _ _)))

theorem senseHazards_changes (f : SenseFrame) (s : State) : Changes s (senseHazards f s) := by
  unfold senseHazards
  split
  · split
    · exact (rearmSense_changes f s).trans (enterLifted_changes _)
    · exact rearmSense_changes f s
  split
  · split
    · exact (rearmSense_changes f s).trans (endLifted_changes _)
    · exact rearmSense_changes f s
  split
  · exact fireSense_changes f s
  · exact rearmSense_changes f s

/-! ## Stall, jam and travel -/

theorem stallInput_changes (left right : Bool) (s : State) : Changes s (stallInput left right s) := by
  simp only [stallInput]
  split
  · split
    · exact .head (.armed _) (fire_changes _ _ _ _)
    · exact .single (.armed _)
  · exact .single (.armed _)

theorem jamInput_changes (jam : Bool) (s : State) : Changes s (jamInput jam s) := by
  simp only [jamInput]
  split
  · split
    · exact .head (.armed _) (fire_changes _ _ _ _)
    · exact .single (.armed _)
  · exact .single (.armed _)

theorem beginBackOff_changes (s : State) : Changes s (beginBackOff s) := by
  unfold beginBackOff
  split
  · rename_i h hp
    exact .single (.phase _ (by rw [hp]; simp) (by simp))
  · exact .refl
  · exact .refl

theorem backOffTravel_changes (figure : Nat) (s : State) : Changes s (backOffTravel figure s) := by
  unfold backOffTravel
  split
  · rename_i h m hp
    split
    · exact .single (.run .hold rfl)
    · exact .single (.phase _ (by rw [hp]; simp) (by simp))
  · exact .refl
  · exact .refl

theorem reverseTravel_changes (figure : Nat) (s : State) : Changes s (reverseTravel figure s) := by
  unfold reverseTravel
  split
  · exact .refl
  · rename_i m hm
    have hr : Change s (withDock { s.dau with reverse := some (m.add figure) } s) := .dock _ (.reverse _ (by simp [hm]))
    split
    · split
      · exact endBumpReverse_changes ‹_›
      · exact .single hr
    split
    · split
      · exact endUndock_changes s
      · exact .single hr
    · exact .refl

theorem handTravel_changes (figure : Nat) (s : State) : Changes s (handTravel figure s) :=
  (segmentTravel_changes figure s).trans ((backOffTravel_changes figure _).trans
    (.head (.suspectTravel figure) (reverseTravel_changes figure _)))

end Sys2Proof.Machine
end

