-- ==== Sys2Proof/Laws/Exec.lean ====
section
/-! SUPPORT. Every command is a chain of primitive changes, so a law that each primitive change keeps holds after every
command, and after every step. -/

namespace Sys2Proof.Machine

/-! ## The Pose Tracker -/

theorem turnBy_le (h : Nat) (d : Int) : turnBy h d ≤ 4095 := by
  unfold turnBy turn
  omega

theorem saturate_le (v : Int) : saturate v ≤ 819199 := by
  unfold saturate clampInt positionMax
  omega

theorem turnHeading_changes (yaw : Int) (s : State) : Changes s (turnHeading yaw s) :=
  .single (.heading _ (turnBy_le _ _))

theorem movePosition_changes (ticks : Int) (s : State) : Changes s (movePosition ticks s) := by
  simp only [movePosition]
  have h : Change s (withPose { s.pot.pose with
      x := saturate ((s.pot.pose.x : Int) + axisMove ticks s.tbs.cal.tickLength (cosine s.pot.pose.heading))
      y := saturate ((s.pot.pose.y : Int) + axisMove ticks s.tbs.cal.tickLength (sine s.pot.pose.heading)) } s) :=
    .position _ _ (saturate_le _) (saturate_le _)
  split
  · exact .head h (.single (.raise _ _))
  · exact .single h

theorem readAheadFrom_changes (c : Cell) (s : State) : Changes s (readAheadFrom c s) := by
  unfold readAheadFrom
  split
  · exact readAhead_changes s
  · exact .refl

theorem trackReply_changes (ticks : Int) (s : State) : Changes s (trackReply ticks s) :=
  (movePosition_changes ticks s).trans
    (.head .appendHistory ((handTravel_changes _ _).trans (readAheadFrom_changes _ _)))

/-- A Set-Pose is refused, or replaces the pose record, after the level change when the level differs (R31, R32). -/
theorem acceptPose_changes {level x y heading : Nat} {s : State} (h : setPoseRefused level s = false) :
    Changes s (acceptPose level x y heading s) := by
  have hx : givenPosition x ≤ 819199 := by unfold givenPosition positionMax; omega
  have hy : givenPosition y ≤ 819199 := by unfold givenPosition positionMax; omega
  have hh : clampHeading heading ≤ 4095 := by unfold clampHeading; omega
  have rest : ∀ u : State, u.pot.pose.level = clampLevel level →
      Changes u (emptyHistory (withPose
        { valid := true, level := clampLevel level, x := givenPosition x, y := givenPosition y,
          heading := clampHeading heading } u)) := by
    intro u hu
    have := ((Relation.ReflTransGen.single (Change.position (s := u) _ _ hx hy)).tail (.heading _ hh)).tail
      (.validity true)
    simp only [withPose, hu] at this
    exact this.tail .emptyHistory
  have main : Changes s (emptyHistory (withPose
      { valid := true, level := clampLevel level, x := givenPosition x, y := givenPosition y,
        heading := clampHeading heading } (changeLevel (clampLevel level) s))) := by
    unfold changeLevel
    split
    · exact rest s (by rw [‹clampLevel level = _›])
    · rename_i hl
      have hm : s.twn.holdsMarks = false := by
        simp only [setPoseRefused, Bool.or_eq_false_iff, Bool.and_eq_false_iff] at h
        rcases h.2 with h | h
        · simp only [bne_eq_false_iff_eq] at h
          exact absurd h hl
        · exact h
      exact .head (.level (clampLevel level) hm (.inl (by unfold clampLevel; omega))) (rest _ rfl)
  simp only [acceptPose]
  split
  · exact main.tail (.raise _ _)
  · exact main

theorem takeSetPose_changes (level x y heading : Nat) (s : State) : Changes s (takeSetPose level x y heading s) := by
  unfold takeSetPose
  split
  · exact .single (.raise _ _)
  · exact acceptPose_changes (by simpa using ‹¬setPoseRefused level s = true›)

/-! ## Tiles -/

theorem takeAtSlot_moves {i : SlotNo} {t : Tile} {s : State} (h : (s.twn.slot i).key? = some t.key) :
    Moves s (takeAtSlot i t s) := by
  unfold takeAtSlot
  split <;> rename_i hs <;> rw [hs] at h <;> simp only [Slot.key?, Option.some.injEq] at h
  · exact .single (.inl (.answer i _ _ t hs h.symm))
  · exact .single (.inl (.replace i _ t hs h.symm))
  · exact (refuseMarked_changes .tile hs).moves
  · split
    · exact (refuseStale_changes _ s).moves
    · exact .single (.inr (.merge i _ t _ hs h.symm))

theorem takeTile_moves (t : Tile) (s : State) : Moves s (takeTile t s) := by
  unfold takeTile
  split
  · split
    · exact takeAtSlot_moves (TileWindow.find_some ‹_›)
    · unfold takeUnsolicited
      split
      · exact .single (.inl (.unsolicited _ t ‹_› ‹_› ‹_›))
      · exact .single (.inl .discardArrival)
  · exact .single (.inl .discardArrival)

theorem dropTile_moves (k : TileKey) (s : State) : Moves s (dropTile k s) := by
  unfold dropTile
  split
  · exact .refl
  · split
    · exact .single (.inl (.dropClean _ _ ‹_›))
    · exact .single (.inr (.dropSent _ _ _ ‹_›))
    · exact (refuseMarked_changes _ ‹_›).moves
    · exact .refl
    · exact .refl

/-! ## Segments, mode commands and loads -/

theorem segmentRecord_inRange (vL vR : Int) (kind : LimitKind) (limit : Nat) (brush tag : Option Nat) :
    (segmentRecord vL vR kind limit brush tag).InRange := by
  have hb : ∀ n, brushAction n ≠ .reverse := by
    intro n
    unfold brushAction
    split <;> simp
  refine ⟨?_, ?_, ?_, ?_⟩
  · simp only [segmentRecord, clampInt]; omega
  · simp only [segmentRecord, clampInt]; omega
  · cases kind <;> simp only [segmentRecord, Within] <;> omega
  · cases brush <;> simp [segmentRecord, hb]

theorem queueSegment_changes (g : Segment) (hg : g.InRange) (s : State) : Changes s (queueSegment g s) := by
  unfold queueSegment
  split
  · exact .single (.queueSegment g hg ‹_›)
  · exact .single (.raise _ _)

theorem queueMode_changes (kind : ModeKind) (factor : Nat) (s : State) : Changes s (queueMode kind factor s) := by
  unfold queueMode
  split
  · exact .single (.queueMode kind factor ‹_›)
  · exact .single (.raise _ _)

theorem clampInt_toNat_within {lo hi : Nat} (h : lo ≤ hi) (v : Int) : Within lo hi (clampInt lo hi v).toNat := by
  unfold Within clampInt
  omega

theorem clampValues_getD {values : List Int} (h : values.length = 35) {n : Nat} (hn : n < 35) :
    (clampValues values).getD n 0 =
      clampInt (calibrationRanges.getD n (0, 0)).1 (calibrationRanges.getD n (0, 0)).2 (values.getD n 0) := by
  have hr : calibrationRanges.length = 35 := rfl
  simp [clampValues, List.getD, hn, h, hr]

/-- A stored calibration record lies in the ranges of R11 (R12). -/
theorem storedCalibration_inRange {values : List Int} (h : values.length = 35) : (storedCalibration values).InRange := by
  constructor <;> simp only [storedCalibration, calibrationOf] <;> rw [clampValues_getD h (by decide)] <;>
    first
      | exact clampInt_toNat_within (by decide) _
      | (simp only [OffsetInRange, clampInt, calibrationRanges, List.getD_cons_succ, List.getD_cons_zero]; omega)

theorem defaultCalibration_inRange : defaultCalibration.InRange := by
  constructor <;> first
    | (show _ ≤ _ ∧ _ ≤ _; decide)

theorem memoryValues_length (bytes : Vector Byte 70) : (memoryValues bytes).length = 35 := by simp [memoryValues]

theorem readCalibration_inRange (r : ConfigRead) : (readCalibration r).InRange := by
  unfold readCalibration
  split
  · exact defaultCalibration_inRange
  · split
    · exact storedCalibration_inRange (memoryValues_length _)
    · exact defaultCalibration_inRange

theorem loadCalibrationRecord_changes {values : List Int} (h : values.length = 35) (s : State) :
    Changes s (loadCalibrationRecord values s) := by
  unfold loadCalibrationRecord
  split
  · have h0 : Change s { s with pli := { s.pli with statusStart := s.pot.timeCount } } :=
      .plan _ (List.Sublist.refl _) (List.Sublist.refl _) (List.Sublist.refl _) rfl
    exact .head h0 (.head (.calibration _ (storedCalibration_inRange h)) (queueAnswer_changes _ _ _))
  · exact queueAnswer_changes _ _ s

/-! ## Resets and line losses -/

theorem beginWatches_changes (s : State) : Changes s (beginWatches s) := by
  have h1 : Change s { s with dli := { s.dli with watch := .waiting s.pot.timeCount } } := .drive _ rfl rfl rfl id
  have h2 : Change { s with dli := { s.dli with watch := .waiting s.pot.timeCount } }
      { s with
        dli := { s.dli with watch := .waiting s.pot.timeCount }
        snp := { s.snp with watch := .waiting s.pot.timeCount } } := .sense _ rfl
  exact .head h1 (.head h2
    (.single (.plan _ (List.Sublist.refl _) (List.Sublist.refl _) (List.Sublist.refl _) rfl)))

theorem raiseDefaulted_changes (r : ConfigRead) (s : State) : Changes s (raiseDefaulted r s) := by
  unfold raiseDefaulted
  split
  · exact .single (.raise _ _)
  · split
    · exact .refl
    · exact .single (.raise _ _)

theorem endLoading_changes (r : ConfigRead) (s : State) : Changes s (endLoading r s) :=
  .head (.calibration _ (readCalibration_inRange r)) ((beginWatches_changes _).trans
    (.head .period (.head (.run .idle rfl) (.head (.raise _ _) (raiseDefaulted_changes r _)))))

theorem restartPart_moves (s : State) : Moves s (restartPart s) :=
  .head (.inr .restart) (.single (.inl (.raise _ _)))

theorem enterFault_changes (s : State) : Changes s (enterFault s) := by
  unfold enterFault
  split
  · exact .refl
  · exact .head .discard (.single (.run .fault rfl))

theorem loseLine_changes (l : Line) (s : State) : Changes s (loseLine l s) := by
  have h : Changes s (loseWatch l s) := by
    cases l
    · exact .single (.drive _ rfl rfl rfl id)
    · exact .single (.sense _ rfl)
  exact (h.tail (.raise _ _)).trans (enterFault_changes _)

/-! ## Replies, statuses and sense frames -/

theorem driveUp_change (s : State) : Change s (driveUp s) := .drive _ rfl rfl rfl id

theorem senseUp_change (c : Bool) (s : State) : Change s (senseUp c s) := .sense _ rfl

theorem takeReply_changes (tL tR : Int) (stallLeft stallRight : Bool) (s : State) :
    Changes s (takeReply tL tR stallLeft stallRight s) :=
  .head (driveUp_change s) ((trackReply_changes _ (driveUp s)).trans (stallInput_changes _ _ _))

theorem takeBrushStatus_changes (b : BrushState) (jam : Bool) (s : State) : Changes s (takeBrushStatus b jam s) :=
  (brushReport_changes b s).trans (jamInput_changes jam _)

theorem takeSense_changes (f : SenseFrame) (s : State) : Changes s (takeSense f s) :=
  .head (senseUp_change _ s) ((turnHeading_changes f.yaw (senseUp f.contact s)).trans
    ((senseHazards_changes f _).trans (dockFrame_changes f _)))

/-! ## The control period expiry -/

theorem handOverGate_changes (g : GateOutput) (s : State) : Changes s (handOverGate g s) :=
  ((sendSetpoint_changes _ _ s).trans (takeWish_changes _ _)).tail (.result _)

theorem sendGate_changes (s : State) : Changes s (sendGate s) :=
  (takeAtExpiry_changes s).trans ((gateCompute_frame _).2.trans (handOverGate_changes _ _))

theorem runGate_changes (length : Nat) (s : State) : Changes s (runGate length s) :=
  (sendGate_changes s).trans (segmentElapsed_changes _ _)

/-- What the take after the computation can do: a Step in RUN or CREEP comes before the addition of the period, and any other
command after it (R83, R114). -/
theorem gateThenTake_cases (length : Nat) (s : State) :
    (stepWaits s = true ∧ gateThenTake length s = segmentElapsed length (takeMode (sendGate s))) ∨
    (stepWaits s = false ∧ gateThenTake length s = takeMode (runGate length s)) := by
  unfold gateThenTake
  cases stepWaits s <;> simp

theorem gateThenTake_changes (length : Nat) (s : State) : Changes s (gateThenTake length s) := by
  rcases gateThenTake_cases length s with ⟨-, h⟩ | ⟨-, h⟩ <;> rw [h]
  · exact ((sendGate_changes s).trans (takeMode_changes _)).trans (segmentElapsed_changes _ _)
  · exact (runGate_changes _ _).trans (takeMode_changes _)

theorem changePhases_changes (s : State) : Changes s (changePhases s) :=
  (beginBackOff_changes s).trans (beginBumpReverse_changes _)

theorem expirePeriod_changes (o : ExpiryOrder) (length : Nat) (s : State) : Changes s (expirePeriod o length s) := by
  rcases o with ⟨takeFirst, phaseFirst⟩
  cases takeFirst <;> cases phaseFirst <;> simp only [expirePeriod, if_true, if_false, id, Bool.false_eq_true]
  · exact ((gateThenTake_changes _ _).trans (changePhases_changes _)).tail .period
  · exact ((changePhases_changes _).trans (gateThenTake_changes _ _)).tail .period
  · exact (((takeMode_changes _).trans (runGate_changes _ _)).trans (changePhases_changes _)).tail .period
  · exact (((takeMode_changes _).trans (changePhases_changes _)).trans (runGate_changes _ _)).tail .period

theorem statusTick_changes (s : State) : Changes s (statusTick s) := by
  have h : Change s { s with pli := { s.pli with statusStart := s.pot.timeCount } } :=
    .plan _ (List.Sublist.refl _) (List.Sublist.refl _) (List.Sublist.refl _) rfl
  exact .head h (requestStatus_changes _)

theorem leave_change (s : State) : Change s { s with pli := { s.pli with leaving := none } } :=
  .plan _ (List.Sublist.refl _) (List.Sublist.refl _) (List.Sublist.refl _) rfl

/-! ## Every command -/

/-- The commands that can release a MARKED or SENT slot (R37). -/
def releases : Instr → Bool
  | .powerOn => true
  | .tile _ _ _ => true
  | .tileDrop _ => true
  | .restart => true
  | _ => false

/-- What a command answers with is reached from its state by primitive changes. -/
def Reaches (s : State) (o : Host.Outcome State Fault Refusal) : Prop := ∀ t, o = .next t → Changes s t

theorem Reaches.next {s t : State} (h : Changes s t) : Reaches s (.next t) := by
  intro u hu
  cases hu
  exact h

theorem takePlan_moves {i : Instr} {act : State → State} {s : State} (h : Moves s (act s)) :
    Moves s (takePlan i act s) := by
  rcases takePlan_cases i act s with ⟨-, e⟩ | ⟨-, -, e⟩ <;> rw [e]
  · exact .single (.inl .planError)
  · exact h.trans (arbitrate_changes _).moves

/-- Every command but the four that release slots is a chain of changes that keep them. -/
theorem exec_reaches {i : Instr} (hi : releases i = false) (s : State) : Reaches s (exec i s) := by
  cases i with
  | powerOn => cases hi
  | configReadEnd r =>
    refine .next ?_
    split
    · exact (endLoading_changes r s).trans (arbitrate_changes _)
    · exact .refl
  | segment vL vR kind limit brush tag =>
    exact .next (takePlan_changes fun _ _ => queueSegment_changes _ (segmentRecord_inRange _ _ _ _ _ _) s)
  | start => exact .next (takePlan_changes fun _ _ => takeStart_changes s)
  | mode kind factor => exact .next (takePlan_changes fun _ _ => queueMode_changes _ _ s)
  | tile key generation contents => cases hi
  | tileDrop key => cases hi
  | setPose level x y heading => exact .next (takePlan_changes fun _ _ => takeSetPose_changes _ _ _ _ s)
  | loadResponse entries =>
    exact .next (takePlan_changes fun _ _ => .head (.response entries) (queueAnswer_changes _ _ _))
  | loadLearn entries =>
    exact .next (takePlan_changes fun _ _ => .head (.learn entries) (queueAnswer_changes _ _ _))
  | loadBraking limits vclear =>
    refine .next (takePlan_changes fun _ hw => .head (.braking limits vclear ?_) (queueAnswer_changes _ _ _))
    simp only [Instr.wellFormed, Bool.and_eq_true, beq_iff_eq] at hw
    exact hw.1.1
  | loadCalibration values =>
    refine .next (takePlan_changes fun _ hw => loadCalibrationRecord_changes ?_ s)
    simp only [Instr.wellFormed, Bool.and_eq_true, beq_iff_eq] at hw
    exact hw.1
  | loadDock level x y heading code =>
    exact .next (takePlan_changes fun _ _ => .head (.dockRecord level x y heading code) (queueAnswer_changes _ _ _))
  | statusRequest => exact .next (takePlan_changes fun _ _ => requestStatus_changes s)
  | eventMask mode kinds => exact .next (takePlan_changes fun _ _ => .single (.events _))
  | eventClear kinds => exact .next (takePlan_changes fun _ _ => .single (.events _))
  | forceEvent kind => exact .next (takePlan_changes fun _ _ => .single (.raise _ _))
  | restart => cases hi
  | planBadFrame => exact .next (.single .planError)
  | odometryReply tL tR l r => exact .next (takeLine_changes fun _ _ => takeReply_changes _ _ _ _ s)
  | brushStatus b jam => exact .next (takeLine_changes fun _ _ => takeBrushStatus_changes _ _ s)
  | senseFrame f => exact .next (takeLine_changes fun _ _ => takeSense_changes f s)
  | linkBadFrame l =>
    refine .next ?_
    split
    · exact .refl
    · exact .single (.lineError l)
  | controlPeriodExpiry =>
    show Reaches s (execControlPeriodExpiry s)
    unfold execControlPeriodExpiry
    split
    · exact .next .refl
    · exact .next (.head (.choice _) ((expirePeriod_changes _ _ _).trans (arbitrate_changes _)))
  | requestTimeout i =>
    show Reaches s (execRequestTimeout i s)
    unfold execRequestTimeout
    split
    · exact .next .refl
    · rename_i k hk
      unfold requestDue at hk
      split at hk
      · rename_i k' at_ hs
        split at hk
        · cases hk
          exact .next (.head (.expire i k at_ hs) (.head (.raise _ _) (arbitrate_changes _)))
        · cases hk
      · cases hk
  | brushTimeout =>
    show Reaches s (execBrushTimeout s)
    unfold execBrushTimeout
    split
    · exact .next .refl
    · exact .next ((expireBrush_changes _ s).trans (arbitrate_changes _))
  | linkTimeout l =>
    refine .next ?_
    split
    · exact (loseLine_changes l s).trans (arbitrate_changes _)
    · exact .refl
  | backOffTimeLimit =>
    refine .next ?_
    split
    · exact .single (.run .hold rfl)
    · exact .refl
  | lostBeaconExpiry =>
    refine .next ?_
    split
    · rename_i h
      simp only [beaconDue, Bool.and_eq_true, beq_iff_eq] at h
      exact .single (.dock _ (.search h.1))
    · exact .refl
  | bumpReverseTimeLimit =>
    refine .next ?_
    split
    · rename_i h
      simp only [bumpReverseDue, Bool.and_eq_true, beq_iff_eq] at h
      exact endBumpReverse_changes h.1
    · exact .refl
  | undockTimeLimit =>
    refine .next ?_
    split
    · exact endUndock_changes s
    · exact .refl
  | statusInterval =>
    refine .next ?_
    split
    · exact (statusTick_changes s).trans (arbitrate_changes _)
    · exact .refl
  | planTransmitterFree =>
    exact .next (.head (leave_change s) (chooseFrame_changes _))
  | driveTransmitterFree =>
    exact .next (.single (.drive _ rfl rfl rfl fun _ e => by rw [List.head?_eq_none_iff.mp e]; rfl))

theorem exec_changes {i : Instr} {s t : State} (hi : releases i = false) (h : exec i s = .next t) : Changes s t :=
  exec_reaches hi s t h

/-- Every command is a chain of primitive changes. -/
theorem exec_moves {i : Instr} {s t : State} (h : exec i s = .next t) : Moves s t := by
  by_cases hi : releases i = false
  · exact (exec_changes hi h).moves
  · cases i <;> simp only [releases, not_true] at hi
    · cases h
      exact Release.powerOn.moves
    · cases h
      exact takePlan_moves (takeTile_moves _ s)
    · cases h
      exact takePlan_moves (dropTile_moves _ s)
    · cases h
      exact takePlan_moves (restartPart_moves s)

/-- A property holds after a step when every primitive change keeps it and it does not read the queue, the time count and
the counter of free choices. -/
theorem step_keeps {P : State → Prop} (hc : ∀ s t, Change s t → P s → P t) (hr : ∀ s t, Release s t → P s → P t)
    (hq : ∀ s q, P s → P { s with pending := q })
    (ht : ∀ s now n, P s → P { s with pot := { s.pot with timeCount := now }, choices := n })
    {s t : State} (h : step s = .next t) (hs : P s) : P t := by
  unfold step at h
  split at h
  · cases h
    exact hq _ _ (ht _ _ _ hs)
  · exact (exec_moves h).keeps hc hr (hq _ _ hs)

end Sys2Proof.Machine
end

