-- ==== Sys2Proof/Tests/Slice0.lean ====
section
/-! SUPPORT. The model's own tests. `test_…`: an ill-formed operand for each check, the manual's worked cases, and the
manual's frames byte by byte; expected values are the manual's. `witness_…`: for each statement with hypotheses, states and
operands that meet them. -/

namespace Sys2Proof.Tests

set_option Elab.async false

open Sys2Proof Sys2Proof.Machine

/-! ## The well-formedness checks refuse -/

/-- A sense frame with every signal clear. -/
def clearFrame : SenseFrame :=
  { age := 4, yaw := 0, cliffFL := 200, cliffFR := 200, cliffSL := 200, cliffSR := 200, bumperLeft := false,
    bumperRight := false, dropLeft := false, dropRight := false, contact := false, beacon := none, dockId := none }

theorem test_wellFormed_segment :
    (Instr.segment 32768 0 .dist 1 none none).wellFormed = false ∧
      (Instr.segment 0 (-32769) .dist 1 none none).wellFormed = false ∧
      (Instr.segment 0 0 .dist 65536 none none).wellFormed = false ∧
      (Instr.segment 0 0 .dist 1 (some 256) none).wellFormed = false ∧
      (Instr.segment 0 0 .dist 1 none (some 65536)).wellFormed = false := by decide

theorem test_wellFormed_mode : (Instr.mode .creep 256).wellFormed = false := by decide

theorem test_wellFormed_tile :
    (Instr.tile ⟨4, 0, 0⟩ 0 (.uniform 0)).wellFormed = false ∧ (Instr.tile ⟨0, 64, 0⟩ 0 (.uniform 0)).wellFormed = false ∧
      (Instr.tile ⟨0, 0, 64⟩ 0 (.uniform 0)).wellFormed = false ∧
      (Instr.tile ⟨0, 0, 0⟩ 256 (.uniform 0)).wellFormed = false ∧
      (Instr.tile ⟨0, 0, 0⟩ 0 (.uniform 16)).wellFormed = false := by decide

theorem test_wellFormed_tileDrop : (Instr.tileDrop ⟨0, 64, 0⟩).wellFormed = false := by decide

theorem test_wellFormed_setPose :
    (Instr.setPose 256 0 0 0).wellFormed = false ∧ (Instr.setPose 0 65536 0 0).wellFormed = false ∧
      (Instr.setPose 0 0 65536 0).wellFormed = false ∧ (Instr.setPose 0 0 0 65536).wellFormed = false := by decide

theorem test_wellFormed_loadResponse :
    (Instr.loadResponse []).wellFormed = false ∧
      (Instr.loadResponse (List.replicate 17 ⟨0, 0, 0, 0, 0, 0⟩)).wellFormed = false ∧
      (Instr.loadResponse [⟨256, 0, 0, 0, 0, 0⟩]).wellFormed = false ∧
      (Instr.loadResponse [⟨0, 256, 0, 0, 0, 0⟩]).wellFormed = false ∧
      (Instr.loadResponse [⟨0, 0, 256, 0, 0, 0⟩]).wellFormed = false ∧
      (Instr.loadResponse [⟨0, 0, 0, 65536, 0, 0⟩]).wellFormed = false ∧
      (Instr.loadResponse [⟨0, 0, 0, 0, 256, 0⟩]).wellFormed = false ∧
      (Instr.loadResponse [⟨0, 0, 0, 0, 0, 256⟩]).wellFormed = false := by decide

theorem test_wellFormed_loadLearn :
    (Instr.loadLearn []).wellFormed = false ∧ (Instr.loadLearn (List.replicate 6 ⟨0, 0⟩)).wellFormed = false ∧
      (Instr.loadLearn [⟨256, 0⟩]).wellFormed = false ∧ (Instr.loadLearn [⟨0, 256⟩]).wellFormed = false := by decide

theorem test_wellFormed_loadBraking :
    (Instr.loadBraking (List.replicate 15 0) 0).wellFormed = false ∧
      (Instr.loadBraking (List.replicate 16 65536) 0).wellFormed = false ∧
      (Instr.loadBraking (List.replicate 16 0) 65536).wellFormed = false := by decide

theorem test_wellFormed_loadCalibration :
    (Instr.loadCalibration (List.replicate 34 0)).wellFormed = false ∧
      (Instr.loadCalibration (List.replicate 35 32768)).wellFormed = false := by decide

theorem test_wellFormed_loadDock : (Instr.loadDock 0 0 0 0 65536).wellFormed = false := by decide

theorem test_wellFormed_eventLists :
    (Instr.eventMask .explicit (List.replicate 250 .bump)).wellFormed = false ∧
      (Instr.eventClear (List.replicate 251 .bump)).wellFormed = false := by decide +kernel

theorem test_wellFormed_odometryReply :
    (Instr.odometryReply 2048 0 false false).wellFormed = false ∧
      (Instr.odometryReply 0 (-2048) false false).wellFormed = false := by decide

theorem test_wellFormed_senseFrame :
    ({ clearFrame with age := 256 } : SenseFrame).wellFormed = false ∧
      ({ clearFrame with yaw := 128 } : SenseFrame).wellFormed = false ∧
      ({ clearFrame with cliffSR := 256 } : SenseFrame).wellFormed = false ∧
      ({ clearFrame with beacon := some ⟨true, false, false, 16⟩ } : SenseFrame).wellFormed = false ∧
      ({ clearFrame with contact := true, dockId := some 16 } : SenseFrame).wellFormed = false ∧
      ({ clearFrame with dockId := some 5 } : SenseFrame).wellFormed = false ∧ clearFrame.wellFormed = true := by decide

/-! ## Frames (chapter 11) -/

/-- The check value of R179. -/
theorem test_crc_check :
    crc16 [0x31, 0x32, 0x33, 0x34, 0x35, 0x36, 0x37, 0x38, 0x39] = 0x29B1 := by decide +kernel

/-- The START frame of R179, with the register after its first counted byte. -/
theorem test_start_frame :
    crc16 [0x00] = 0xE1F0 ∧ envelope 0x02 [] = [0xA5, 0x00, 0x02, 0x3D, 0x4D] ∧
      decodePlan [0x00, 0x02, 0x3D, 0x4D] = .start := by decide +kernel

/-- The segment of section 11.3. -/
theorem test_segment_body :
    planCommand 0x01 [0x01, 0x2C, 0x01, 0x04, 0x00, 0x07, 0xD0, 0x02, 0x00, 0x07] =
      some (.segment 300 260 .dist 2000 none (some 7)) := by decide

/-- The sense frame of section 11.3: both bumpers, the dock contact and dock ID 5. -/
theorem test_sense_body :
    senseCommand 0x41 [0x04, 0xFE, 0xC8, 0xC8, 0xC8, 0xC8, 0x53, 0x05] =
      some (.senseFrame { clearFrame with
        yaw := -2, bumperLeft := true, bumperRight := true, contact := true, dockId := some 5 }) := by decide

/-- Mode, tile, drop, pose and table bodies laid out by R180 and R181. -/
theorem test_plan_bodies :
    planCommand 0x03 [0x02, 0x03] = some (.mode .creep 3) ∧
      planCommand 0x04 [0x00, 0x08, 0x0C, 0x07, 0x01, 0x02] = some (.tile ⟨0, 8, 12⟩ 7 (.uniform 2)) ∧
      planCommand 0x05 [0x01, 0x3F, 0x00] = some (.tileDrop ⟨1, 63, 0⟩) ∧
      planCommand 0x06 [0x00, 0x18, 0x6A, 0x27, 0x10, 0x08, 0x00] = some (.setPose 0 6250 10000 2048) ∧
      planCommand 0x07 [0x00, 0x02, 0x00, 0x00, 0x00, 0x96, 0x01, 0x01] = some (.loadResponse [⟨2, 0, 0, 150, 1, 1⟩]) ∧
      planCommand 0x07 [0x01, 0x02, 0xFF] = some (.loadLearn [⟨2, 255⟩]) ∧
      planCommand 0x07 [0x04, 0x00, 0x00, 0x17, 0x70, 0x27, 0x10, 0x08, 0x00, 0x00, 0x05] =
        some (.loadDock 0 6000 10000 2048 5) := by decide

/-- Event and drive bodies laid out by R180 and R181. -/
theorem test_event_and_drive_bodies :
    planCommand 0x09 [0x01, 0x03, 0x19] = some (.eventMask .onStatus [.bump, .markDropped]) ∧
      planCommand 0x0A [0x04] = some (.eventClear [.cliff]) ∧ planCommand 0x0A [0x1A] = none ∧
      planCommand 0x0B [0x08] = some (.forceEvent .stall) ∧ planCommand 0x0C [] = some .restart ∧
      driveCommand 0x31 [0x00, 0x28, 0xFF, 0xEC, 0x02] = some (.odometryReply 40 (-20) false true) ∧
      driveCommand 0x32 [0x04, 0x01] = some (.brushStatus .reverse true) ∧ driveCommand 0x32 [0x05, 0x00] = none := by
  decide

/-- Cell index 141 is the high half of byte 70 of the packed block (section 11.3). -/
theorem test_packed_class :
    packedClass (List.replicate 70 0 ++ [0x90] ++ List.replicate 57 0) 141 = 9 ∧
      packedClass (List.replicate 70 0 ++ [0x90] ++ List.replicate 57 0) 140 = 0 := by decide

/-- A byte of 251 to 255 in the length's place ends the frame at once (R179). -/
theorem test_length_too_long : Receiver.take (.inFrame []) 251 = (.hunting, some .tooLong) := by decide


/-! ## States for the tests -/

/-- The state after a command; the part has no stop. -/
def after (c : Instr) (s : State) : State :=
  match exec c s with
  | .next t => t
  | .fault _ => s
  | .refused _ => s

/-- A frame that is leaving on the Plan Link, so that what begins to wait stays in its queue. -/
def someFrame : PlanFrame := .answer { selector := .dock, answer := .accepted }

/-- IDLE with both lines up and a frame leaving on the Plan Link. -/
def idle : State :=
  let r := State.reset
  { r with
    rct := { r.rct with state := .idle }
    dli := { r.dli with watch := .up 0 }
    snp := { r.snp with watch := .up 0 }
    mgt := { r.mgt with period := some { start := 0, length := 10 } }
    pli := { r.pli with leaving := some someFrame } }

/-- `idle` in a run state. -/
def inState (r : RunState) : State := { idle with rct := { idle.rct with state := r } }

/-- A tile of one class. -/
def plainTile (k : TileKey) (generation : Nat) (c : CellClass) : Tile :=
  { key := k, generation := generation, cells := Vector.replicate 256 c }

/-- A state with a valid pose. -/
def posed (x y heading : Nat) (s : State) : State :=
  { s with pot := { s.pot with pose := { valid := true, level := 0, x := x, y := y, heading := heading } } }

/-- A state with slots filled from the lowest, in recency order. -/
def holding (slots : List Slot) (s : State) : State :=
  { s with twn := { s.twn with
      slots := Vector.ofFn (fun i => slots.getD i .empty)
      recency := (List.finRange 16).take slots.length } }

/-- RUN at (100 000, 160 000), heading 0, on OPEN floor. -/
def onFloor : State :=
  holding [.clean (plainTile ⟨0, 7, 12⟩ 1 0), .clean (plainTile ⟨0, 8, 12⟩ 1 0)] (posed 100000 160000 0 (inState .run))

/-- A state with a current segment. -/
def driving (vL vR : Int) (s : State) : State :=
  let g : Segment := { vL := vL, vR := vR, kind := .dist, limit := 2000, brush := none, tag := some 7 }
  { s with mgt := { s.mgt with current := some g.begin } }

/-- The map of section 5.6: LOW_RUG under the centre, a STAIR_EDGE at cell (133, 200). -/
def stairAhead : State :=
  holding [.clean ((plainTile ⟨0, 7, 12⟩ 1 0).write 141 1), .clean ((plainTile ⟨0, 8, 12⟩ 1 0).write 133 9)]
    (driving 300 260 onFloor)

/-! ## The manual's worked cases -/

/-- The sine table's examples (R5). -/
theorem test_sine :
    [sine 0, sine 1, sine 256, sine 512, sine 768, sine 1024, sine 1536, sine 2560, sine 3072] =
        [0, 25, 6270, 11585, 15137, 16384, 11585, -11585, -16384] ∧
      [cosine 0, cosine 1024, cosine 1536, cosine 2048, cosine 3584] = [16384, 0, -11585, -16384, 11585] := by
  decide +kernel

/-- The worked load of section 1.6. -/
theorem test_braking_load :
    (brakingTable [10, 0, 60, 50, 150, 180, 220, 260, 300, 340, 380, 420, 460, 520, 400, 550] 600).limits.toList =
        [0, 0, 50, 50, 150, 180, 220, 260, 300, 340, 380, 400, 400, 400, 400, 500] ∧
      brakingMoved [10, 0, 60, 50, 150, 180, 220, 260, 300, 340, 380, 420, 460, 520, 400, 550] 600 = true := by
  decide +kernel

/-- Odometry replies of section 2.4: a diagonal move, and backing into an edge. -/
theorem test_odometry_moves :
    ((after (.odometryReply 40 42 false false) (posed 100000 160000 512 idle)).pot.pose.x,
        (after (.odometryReply 40 42 false false) (posed 100000 160000 512 idle)).pot.pose.y) = (100232, 160232) ∧
      (after (.odometryReply 100 100 false false) (posed 100000 160000 1024 idle)).pot.pose.y = 160800 ∧
      (after (.odometryReply (-20) (-20) false false) (posed 100 160000 0 idle)).pot.pose.x = 0 ∧
      ((after (.odometryReply (-20) (-20) false false) (posed 100 160000 0 idle)).evu.record .poseEdge).detail =
        .edgeOdometry := by
  decide +kernel

/-- The age lookups of section 2.6. -/
theorem test_age_lookups :
    let entry (t : Time) : HistoryEntry := { stamp := t, x := t.toNat, y := 0, heading := 0 }
    let p : PoseTracker := { idle.pot with history := [entry 61200, entry 61220, entry 61240, entry 61260, entry 61280] }
    ((ageLookup p 61291 0).1.x, (ageLookup p 61291 25).1.x, (ageLookup p 61291 40).1.x) = (61280, 61260, 61240) ∧
      (ageLookup p 61291 92).2 = true ∧
      (ageLookup { p with history := [entry 4294967290] } 6 12).2 = false := by
  decide +kernel

/-- The rotated offsets of section 2.7. -/
theorem test_points :
    (offsetX ⟨100000, 160000, 1024⟩ 150 90, offsetY ⟨100000, 160000, 1024⟩ 150 90) = (98560, 162400) ∧
      offsetY ⟨100000, 160000, 0⟩ 0 118 = 161888 ∧ offsetX ⟨100000, 160000, 512⟩ 170 0 = 101923 := by
  decide +kernel

/-- Read-ahead at a corner (section 3.5). -/
theorem test_read_ahead :
    readAheadKeys 0 ⟨124, 200⟩ = [] ∧ readAheadKeys 0 ⟨125, 200⟩ = [⟨0, 8, 12⟩] ∧
      readAheadKeys 0 ⟨125, 205⟩ = [⟨0, 8, 12⟩, ⟨0, 7, 13⟩, ⟨0, 8, 13⟩] ∧
      readAheadKeys 0 ⟨128, 206⟩ = [⟨0, 7, 12⟩, ⟨0, 8, 13⟩, ⟨0, 7, 13⟩] ∧
      readAheadKeys 0 ⟨1022, 5⟩ = [] ∧ readAheadKeys 0 ⟨1022, 1⟩ = [] := by
  decide +kernel

/-- A stair edge ahead, in RUN, in CREEP with n = 3 and with a suspicion open (section 5.6). -/
theorem test_gate_stair :
    (gateCompute stairAhead).1 =
        { vL := 171, vR := 148, wish := .run, result := { vc := 280, vlim := some 160, kStar := 6, scaled := true } } ∧
      (gateCompute stairAhead).2.twn.recency = [1, 0] ∧
      (gateCompute { stairAhead with rct := { stairAhead.rct with state := .creep, creep := 3 } }).1.vL = 56 ∧
      (gateCompute { stairAhead with rfx := { stairAhead.rfx with
        suspects := noSuspects.set .fl (some { travel := 0, start := 0 }) } }).1.vR = 37 := by
  decide +kernel

/-- The wheel clamp before the centre, and a spin (section 5.6). -/
theorem test_gate_clamp_and_spin :
    ((gateCompute (driving 600 200 onFloor)).1.vL, (gateCompute (driving 600 200 onFloor)).1.vR) = (415, 184) ∧
      ((gateCompute (driving (-100) 101 onFloor)).1.vL, (gateCompute (driving (-100) 101 onFloor)).1.vR) = (-100, 101) := by
  decide +kernel

/-- A back-off scanned behind, the edge of the level, and the pose invalid (section 5.6). -/
theorem test_gate_behind_and_edge :
    let backing : State := { onFloor with
      rct := { onFloor.rct with state := .reflex }
      rfx := { onFloor.rfx with phase := .back (.bump .left) { travel := 0, start := 0 } } }
    let learned := holding [.clean ((plainTile ⟨0, 7, 12⟩ 1 0).write 134 13)] backing
    let far := holding [.clean (plainTile ⟨0, 63, 12⟩ 1 0)] (posed 812000 160000 0 (inState .run))
    ((gateCompute learned).1.vL, (gateCompute learned).1.result.kStar) = (-80, 4) ∧
      (scan 200 far).1 = (7, 200) ∧
      (gateCompute (driving 200 200 (inState .run))).1 =
        { vL := 100, vR := 100, wish := .lift, result := { vc := 200, vlim := some 100, kStar := 0, scaled := true } } := by
  decide +kernel

/-- Replacement in the marks list (section 4.3): JAM on cell 130, then CLIFF on it, and a ninth cell overflows. -/
theorem test_marks_list :
    let r (c : CellIndex) (k : MarkKind) (cls : CellClass) : MarkRecord :=
      { cell := c, cls := cls, kind := k, stale := false, sent := false }
    let m := (((noMarks.add (r 130 .jam 14)).add (r 128 .bump 12)).add (r 130 .cliff 13))
    let full := [160, 161, 162, 163, 164, 165].foldl (fun (m : Marks) c => m.add (r c .bump 12)) m
    m.records = [r 130 .cliff 13, r 128 .bump 12] ∧ full.records.length = 8 ∧ full.overflow = false ∧
      (full.add (r 200 .stall 12)).overflow = true ∧ (full.add (r 200 .stall 12)).records = full.records := by
  decide +kernel

/-- A bump in RUN and a cliff during its back-off (section 7.3). -/
theorem test_bump_and_second_cause :
    let bumped := after (.senseFrame { clearFrame with bumperLeft := true }) (driving 100 100 onFloor)
    let backing : State := { bumped with rfx := { bumped.rfx with
      phase := .back (.bump .left) { travel := 40960, start := 0 } } }
    let aborted := after (.senseFrame { clearFrame with bumperLeft := true, cliffFR := 20 }) backing
    (bumped.rct.state, bumped.rfx.phase) = (.reflex, .halt (.bump .left)) ∧
      (bumped.evu.record .bump).detail = .hazard (.bump .left) (some 1) ∧
      aborted.rct.state = .hold ∧ (aborted.evu.record .cliff).detail = .hazard (.cliff .fr) none ∧
      (aborted.evu.record .reflexAborted).detail = .cause (.cliff .fr) := by
  decide +kernel

/-- A state with class 2 a rug of CONFIRM trust, its record edge or not. -/
def withRug (edge : Bool) (s : State) : State :=
  { s with tbs := { s.tbs with
      response := s.tbs.response.set 2 { blocking := false, edge := edge, floorCap := 150, brush := .low, trust := .confirm } } }

/-- The tile (8, 12) with the rug under FL's cell, (128, 201). -/
def rugTile : Tile := (plainTile ⟨0, 8, 12⟩ 1 0).write 144 2

/-- RUN on the rug, with a tile to the west. -/
def onRug (edge : Bool) (west : Tile) : State := holding [.clean west, .clean rugTile] (withRug edge onFloor)

/-- Trust near a rug's edge: CONFIRM opens a suspicion, a STAIR_EDGE at (126, 199) fires (section 7.5). -/
theorem test_cliff_trust :
    let low := Instr.senseFrame { clearFrame with cliffFL := 22 }
    let opened := after low (onRug false (plainTile ⟨0, 7, 12⟩ 1 0))
    let fired := after low (onRug false ((plainTile ⟨0, 7, 12⟩ 1 0).write 126 9))
    opened.rfx.suspects.fl = some { travel := 0, start := 0 } ∧ opened.rct.state = .run ∧ fired.rct.state = .reflex := by
  decide +kernel

/-- Own cell of CONFIRM trust and edge: the other cells are looked up, the first of them, (126, 199), unknown, and its tile
requested (R133, R42). -/
theorem test_own_edge_looks_around :
    let fired := after (.senseFrame { clearFrame with cliffFL := 22 }) (holding [.clean rugTile] (withRug true onFloor))
    fired.rct.state = .reflex ∧ fired.pli.requests = [⟨0, 7, 12⟩] := by
  decide +kernel

/-- The brush of section 9.3: a wish held as pending leaves when the command in flight is confirmed. -/
theorem test_brush_pending :
    let s : State := { idle with dli := { idle.dli with
      brushState := .run, reservation := some { commanded := .lift, sentAt := 0 }, pendingBrush := some .low } }
    (after (.brushStatus .lift false) s).dli.reservation = some { commanded := .low, sentAt := 0 } ∧
      (after (.brushStatus .lift false) s).dli.leaving = some (.brush (some .low)) ∧
      (after (.brushStatus .run false) s).dli.pendingBrush = some .low := by
  decide +kernel

/-- The docking of section 8.9: the hand-over, the fifth contact, and the dock's ID. -/
theorem test_docking :
    let s : State := { posed 112000 160000 2048 (inState .homing) with
      tbs := { idle.tbs with dock := { level := 0, x := 6000, y := 10000, heading := 2048, code := 5 } } }
    let seen := after (.senseFrame { clearFrame with beacon := some ⟨true, true, false, 5⟩ }) s
    let fourth : State := { seen with dau := { seen.dau with contactCount := 4 } }
    let fifth := after (.senseFrame { clearFrame with contact := true }) fourth
    let docked := after (.senseFrame { clearFrame with contact := true, dockId := some 5 }) fifth
    (seen.rct.state, seen.dau.phase, seen.dau.lastSector) = (.approach, .track, some .centre) ∧
      (fifth.dau.phase, fifth.dau.contactCount, fifth.dau.idWait) = (.contact, 5, 1) ∧
      docked.rct.state = .docked ∧ (docked.pot.pose.x, docked.pot.pose.y) = (96000, 160000) := by
  decide +kernel

/-- A report leaves slot A for SENT, and the next MARKED slot enters the queue (section 4.4). -/
theorem test_report_order :
    let mark : Marks := { records := [{ cell := 3, cls := 12, kind := .bump, stale := false, sent := false }], overflow := false }
    let key (n : Nat) : TileKey := ⟨0, n, 0⟩
    let s0 := holding ((List.range 5).map (fun n => .marked (plainTile (key n) 1 0) mark)) idle
    let s : State := { s0 with mru := { s0.mru with markedOrder := [0, 1, 2, 3, 4], reportQueue := [key 0, key 1, key 2, key 3] } }
    let t := after .planTransmitterFree s
    (t.mru.markedOrder, t.mru.reportQueue) = ([1, 2, 3, 4], [key 1, key 2, key 3, key 4]) ∧ (t.twn.slot 0).isSent = true := by
  decide +kernel

/-- Eight unsent marks on cells 0 to 7. -/
def eightMarks : Marks :=
  { records := (List.finRange 8).map (fun n =>
      { cell := n.castLE (by decide), cls := 12, kind := .bump, stale := false, sent := false })
    overflow := false }

/-- RUN on OPEN floor, the tile (0, 7, 12) MARKED with eight marks and at the head of the report queue. -/
def fullyMarked : State :=
  let s := holding [.marked (plainTile ⟨0, 7, 12⟩ 1 0) eightMarks] onFloor
  { s with mru := { s.mru with markedOrder := [0], reportQueue := [⟨0, 7, 12⟩] } }

/-- A mark on a ninth cell with the building of the report, in either order, and after it (R72, R64). -/
theorem test_ninth_mark_with_the_report :
    let marks (s : State) : Option Marks := match s.twn.slot 0 with | .sent _ m => some m | _ => none
    let markFirst := after .planTransmitterFree (requestMark .jam 0 fullyMarked)
    let built := after .planTransmitterFree fullyMarked
    let reportFirst := requestMark .jam 0 built
    let later := requestMark .jam 0 { built with pot := { built.pot with timeCount := 1 } }
    (match markFirst.pli.leaving with | some (.report r) => (match r.body with | .image _ => true | _ => false) | _ => false) = true ∧
      (match built.pli.leaving with | some (.report r) => decide (r.body = .list eightMarks.records) | _ => false) = true ∧
      (marks reportFirst).map (fun m => (m.overflow, m.records.length)) = some (true, 8) ∧
      classAt reportFirst ⟨125, 200⟩ = some 14 ∧
      (marks later).map (fun m => (m.overflow, m.records.length)) = some (false, 9) := by
  decide +kernel

/-- POWER_ON, then the end of the read by an unanswered transfer (R15, R104). -/
theorem test_power_on_and_read :
    let t := after (.configReadEnd .unanswered) (after .powerOn (inState .fault))
    t.rct.state = .idle ∧ (t.evu.record .configDefaulted).detail = .configNoAnswer ∧ (t.evu.record .powerOn).flag = true ∧
      t.mgt.period = some { start := 0, length := 10 } := by
  decide +kernel

/-- A bad format byte stores the defaults; a good one stores each value, held to its range (R15). -/
theorem test_config_read :
    let zeros : Vector Byte 70 := Vector.replicate 70 0
    (after (.configReadEnd (.answered 0xC2 zeros)) State.reset).tbs.cal.tickLength = 64 ∧
      (after (.configReadEnd (.answered 0xC2 zeros)) State.reset).tbs.cal.statusInterval = 0 ∧
      (after (.configReadEnd (.answered 0xC3 zeros)) State.reset).tbs.cal.tickLength = 512 := by
  decide +kernel

/-- Every refused or ignored moment of the small commands: a Start in HOLD, a ninth segment, a fourth mode command. -/
theorem test_refusals :
    let g : Segment := { vL := 0, vR := 0, kind := .dist, limit := 1, brush := none, tag := none }
    let full : State := { idle with mgt := { idle.mgt with queue := List.replicate 8 g } }
    let busy : State := { idle with rct := { idle.rct with modeQueue := List.replicate 3 { kind := .stop, factor := 0 } } }
    ((after .start (inState .hold)).evu.record .commandRefused).detail = .refused .start ∧
      ((after (.segment 1 1 .dist 1 none (some 9)) full).evu.record .segmentOverflow).detail = .tag (some 9) ∧
      ((after (.mode .hold 0) busy).evu.record .modeLost).detail = .mode .hold ∧
      (after .start idle).rct.state = .run := by
  decide +kernel

/-! ## Witnesses: the statements' hypotheses are met -/

/-- The window law follows from comparisons of slots. -/
theorem windowLaw_of {s : State}
    (h : ∀ i j : SlotNo, (s.twn.slot i).key? ≠ none → (s.twn.slot i).key? = (s.twn.slot j).key? → i = j)
    (hl : ∀ i : SlotNo, ((s.twn.slot i).key?.all (fun k => k.level == s.pot.pose.level)) = true) : WindowLaw s := by
  refine ⟨fun i j k hi hj => h i j (by simp [hi]) (hi.trans hj.symm), fun i k hi => ?_⟩
  have := hl i
  rw [hi] at this
  simpa using this

/-- A tile arrives as `tileOf` builds it. -/
theorem tileOf_uniform_arrives (key : TileKey) (generation : Nat) (c : Nat) (h : c ≤ 15) :
    ArrivesAs (tileOf key generation (.uniform c)) key generation (.uniform c) := by
  refine ⟨rfl, rfl, fun n => ?_⟩
  simp [tileOf]
  omega

/-- A key that no slot holds, from the keys of the slots. -/
theorem noSlot_of {s : State} {k : TileKey} (h : s.twn.find k = none) : ∀ i, (s.twn.slot i).key? ≠ some k :=
  TileWindow.find_eq_none.mp h

/-- One unsent mark. -/
def oneMark : Marks := { records := [{ cell := 3, cls := 12, kind := .bump, stale := false, sent := false }], overflow := false }

/-- A window with a slot in each state, the rest EMPTY. -/
def mixed : State :=
  let s := holding [.pending ⟨0, 1, 1⟩ 0, .clean (plainTile ⟨0, 2, 1⟩ 1 0), .marked (plainTile ⟨0, 3, 1⟩ 1 0) oneMark,
    .sent (plainTile ⟨0, 4, 1⟩ 1 0) oneMark] (posed 100000 160000 0 idle)
  { s with mru := { s.mru with markedOrder := [2], reportQueue := [⟨0, 3, 1⟩] } }

/-- A window of sixteen CLEAN slots. -/
def crowded : State := holding ((List.range 16).map (fun n => .clean (plainTile ⟨0, n, 0⟩ 1 0))) (posed 100000 160000 0 idle)

theorem mixed_windowLaw : WindowLaw mixed := windowLaw_of (by decide +kernel) (by decide +kernel)

theorem crowded_windowLaw : WindowLaw crowded := windowLaw_of (by decide +kernel) (by decide +kernel)

theorem witness_StepTakesTheFrontCommand : { State.reset with pending := [.start] }.pending = Instr.start :: [] := rfl

theorem witness_IdleStepAdvancesTheTimeCount : State.reset.pending = [] := rfl

theorem witness_RestartSetsEveryBlock : idle.rct.state ≠ .loading ∧ (inState .fault).rct.state ≠ .loading := by decide

theorem witness_PowerOnReadEndsLoading :
    State.reset.rct.state = .loading ∧ (0xC3 : Byte) ≠ 0xC2 ∧ State.reset.pli.events = [] ∧
      ∀ k, State.reset.evu.record k = { flag := false, detail := .none, masked := false } := by
  refine ⟨rfl, by decide, rfl, fun k => ?_⟩
  cases k <;> rfl

theorem witness_BadFramesAreDiscardedAndCounted :
    (isPlanFrame .start = true ∧ State.reset.rct.state = .loading) ∧
      (isPlanFrame (.tile ⟨4, 0, 0⟩ 0 (.uniform 0)) = true ∧ OffMap ⟨4, 0, 0⟩ ∧ OffMap ⟨0, 64, 0⟩ ∧ OffMap ⟨0, 0, 64⟩) ∧
      (15 < 16 ∧ isPlanFrame (.tileDrop ⟨0, 64, 0⟩) = true) ∧ idle.rct.state ≠ .loading ∧
      ((-2048 : Int) < -2047 ∧ (2047 : Int) < 2048) ∧
      ({ clearFrame with beacon := some ⟨true, false, false, 16⟩ } : SenseFrame).beacon = some ⟨true, false, false, 16⟩ ∧
      ({ clearFrame with dockId := some 5 } : SenseFrame).contact = false := by
  refine ⟨⟨rfl, rfl⟩, ⟨rfl, ?_, ?_, ?_⟩, ⟨by decide, rfl⟩, by decide, by decide, rfl, rfl⟩ <;> simp [OffMap]

theorem witness_SegmentIsClampedAndQueued :
    idle.rct.state ≠ .loading ∧ (Instr.segment (-601) 601 .dist 0 (some 4) (some 7)).wellFormed = true ∧
      (Instr.segment 600 (-600) .time 9 none none).wellFormed = true ∧ idle.mgt.queue.length < 8 := by decide

theorem witness_StartEntersRunOrIsRefused :
    (idle.rct.state = .idle ∧ idle.dli.watch = .up 0 ∧ idle.snp.watch = .up 0) ∧
      ((inState .hold).rct.state ≠ .loading ∧ (inState .hold).rct.state ≠ .idle) ∧
      ∀ t, { idle.dli with watch := .lost }.watch ≠ .up t := by
  refine ⟨by decide, by decide, fun t h => ?_⟩
  cases h

theorem witness_ModeCommandIsQueuedOrLost : idle.rct.state ≠ .loading ∧ 255 ≤ 255 ∧ idle.rct.modeQueue.length < 3 := by decide

theorem witness_TileIsStoredDiscardedOrRefused :
    (mixed.rct.state ≠ .loading ∧ ¬OffMap ⟨0, 63, 63⟩ ∧ 255 ≤ 255 ∧ 15 ≤ 15 ∧
        ArrivesAs (tileOf ⟨0, 63, 63⟩ 255 (.uniform 15)) ⟨0, 63, 63⟩ 255 (.uniform 15)) ∧
      (⟨1, 0, 0⟩ : TileKey).level ≠ mixed.pot.pose.level ∧
      mixed.twn.slot 0 = .pending ⟨0, 1, 1⟩ 0 ∧ mixed.twn.slot 1 = .clean (plainTile ⟨0, 2, 1⟩ 1 0) ∧
      mixed.twn.slot 2 = .marked (plainTile ⟨0, 3, 1⟩ 1 0) oneMark ∧
      mixed.twn.slot 3 = .sent (plainTile ⟨0, 4, 1⟩ 1 0) oneMark ∧
      (∀ i, (mixed.twn.slot i).key? ≠ some ⟨0, 63, 63⟩) ∧ mixed.twn.slot 4 = .empty ∧
      (∀ i, (crowded.twn.slot i).isEmpty = false) ∧ (∀ i, (crowded.twn.slot i).key? ≠ some ⟨0, 63, 63⟩) := by
  refine ⟨⟨by decide, by simp [OffMap], by decide, by decide, tileOf_uniform_arrives _ _ _ (by decide)⟩, by decide, rfl, rfl, rfl,
    rfl, noSlot_of (by decide +kernel), rfl, by decide +kernel, noSlot_of (by decide +kernel)⟩

theorem witness_MergedTileReappliesUnsentMarks :
    WindowLaw mixed ∧ mixed.twn.slot 3 = .sent (plainTile ⟨0, 4, 1⟩ 1 0) oneMark ∧ 2 ≠ (plainTile ⟨0, 4, 1⟩ 1 0).generation ∧
      ((recordsWith false oneMark).map MarkRecord.cell).Nodup ∧
      ArrivesAs (tileOf ⟨0, 4, 1⟩ 2 (.uniform 0)) ⟨0, 4, 1⟩ 2 (.uniform 0) :=
  ⟨mixed_windowLaw, rfl, by decide, by decide, tileOf_uniform_arrives _ _ _ (by decide)⟩

theorem witness_TileDropActsBySlotState :
    mixed.rct.state ≠ .loading ∧ ¬OffMap ⟨0, 2, 1⟩ ∧ WindowLaw mixed ∧
      mixed.twn.slot 1 = .clean (plainTile ⟨0, 2, 1⟩ 1 0) ∧ mixed.twn.slot 3 = .sent (plainTile ⟨0, 4, 1⟩ 1 0) oneMark ∧
      mixed.twn.slot 2 = .marked (plainTile ⟨0, 3, 1⟩ 1 0) oneMark ∧ mixed.twn.slot 0 = .pending ⟨0, 1, 1⟩ 0 ∧
      (∀ i, (mixed.twn.slot i).key? ≠ some ⟨0, 63, 63⟩) ∧ OffMap ⟨0, 64, 0⟩ :=
  ⟨by decide, by simp [OffMap], mixed_windowLaw, rfl, rfl, rfl, rfl, noSlot_of (by decide +kernel), by simp [OffMap]⟩

theorem witness_SetPoseIsAcceptedOrRefused :
    (inState .reflex).rct.state = .reflex ∧ (inState .approach).rct.state = .approach ∧
      (min 3 255 ≠ mixed.pot.pose.level ∧ mixed.twn.slot 2 = .marked (plainTile ⟨0, 3, 1⟩ 1 0) oneMark) ∧
      (min 3 0 = mixed.pot.pose.level ∧ mixed.rct.state ≠ .reflex ∧ mixed.rct.state ≠ .approach) ∧
      51200 ≤ 65535 ∧ 819199 < 51200 * 16 ∧ ¬819199 < 51199 * 16 := by
  refine ⟨rfl, rfl, ⟨by decide, rfl⟩, by decide, by decide, by decide, by decide⟩

theorem witness_ResponseLoadStoresLastEntries :
    idle.rct.state ≠ .loading ∧
      (Instr.loadResponse [⟨2, 0, 0, 150, 1, 1⟩, ⟨15, 0, 0, 0, 0, 0⟩, ⟨14, 2, 0, 501, 4, 2⟩]).wellFormed = true := by decide

theorem witness_LearnLoadStoresLastEntries :
    idle.rct.state ≠ .loading ∧ (Instr.loadLearn [⟨4, 14⟩, ⟨0, 15⟩, ⟨5, 254⟩, ⟨2, 255⟩]).wellFormed = true := by decide

theorem witness_BrakingTableStaysInOrder :
    idle.rct.state ≠ .loading ∧ (List.replicate 16 65535).length = 16 ∧ State.reset.tbs.braking.InOrder := by
  refine ⟨by decide, rfl, by decide, by decide, by decide⟩

theorem witness_CalibrationLoadIsWholeOrBusy :
    idle.rct.state = .idle ∧ (inState .run).rct.state ≠ .idle ∧ (inState .run).rct.state ≠ .loading ∧
      (List.replicate 35 (-32768 : Int)).length = 35 ∧ idle.tbs.cal.values.length = 35 := by decide

theorem witness_DockLoadIsClamped : idle.rct.state ≠ .loading ∧ 65535 ≤ 65535 := by decide

theorem witness_MasksAndClearsActOnFlagsAlone :
    idle.rct.state ≠ .loading ∧ (List.replicate 249 EventKind.bump).length ≤ 249 ∧
      idle.pli.events = [] ∧ idle.pli.retries = [] ∧ idle.pli.answers = [] ∧ idle.pli.requests = [] ∧
      idle.mru.reportQueue = [] ∧ { idle.pli with statusWaits := true }.statusWaits = true := by
  refine ⟨by decide, by decide +kernel, rfl, rfl, rfl, rfl, rfl, rfl⟩

/-- An EVENT frame of a kind. -/
def eventOf (k : EventKind) : EventFrame := { kind := k, detail := .none, time := 0, place := none }

theorem witness_ForcedEventChangesFlagAlone :
    idle.rct.state ≠ .loading ∧ (idle.evu.record .lifted).flag = false ∧ (idle.evu.record .lifted).masked = false ∧
      (∀ w ∈ idle.pli.events, w.kind ≠ .lifted) ∧
      [eventOf .bump, eventOf .lifted, eventOf .brushJam] = [eventOf .bump] ++ eventOf .lifted :: [eventOf .brushJam] ∧
      ∀ o ∈ [eventOf .bump] ++ [eventOf .brushJam], o.kind ≠ .lifted := by decide

theorem witness_OccurrenceSetsFlagAndQueuesFrame :
    (idle.pli.events.map EventFrame.kind).Nodup ∧ (idle.evu.record .bump).flag = false ∧
      ((raise .bump .none idle).evu.record .bump).flag = true ∧
      ((raise .bump .none idle).pli.events.map EventFrame.kind) = [.bump] := by decide +kernel

theorem witness_OdometryMovesPositionAndHistory :
    idle.rct.state ≠ .loading ∧ ((-2047 : Int) ≤ 2047) ∧ HistoryLaw idle := by
  refine ⟨by decide, by decide, ?_⟩
  simp [HistoryLaw, idle, State.reset]

theorem witness_ReplyReadsAheadOnCellChange :
    onFloor.rct.state ≠ .loading ∧ onFloor.mgt.current = none ∧ onFloor.rfx.phase = .none ∧
      onFloor.rfx.suspects = noSuspects ∧ onFloor.dau.reverse = none ∧ onFloor.pot.pose.valid = true ∧
      (after (.odometryReply 100 100 false false) onFloor).pot.pose.x / 800 ≠ onFloor.pot.pose.x / 800 := by
  decide +kernel

/-- The laws of the phases hold in a state with no phase, no suspicion and no pending step, outside REFLEX and APPROACH. -/
theorem still_phaseLaw {s : State} (hr : s.rfx.phase = .none) (hd : s.dau.phase = .none) (hs : s.rfx.suspects = noSuspects)
    (hp : s.rct.pendingStep = false) (h1 : s.rct.state ≠ .reflex) (h2 : s.rct.state ≠ .approach) : PhaseLaw s :=
  { reflex := by simp [hr, h1]
    approach := by simp [hd, h2]
    suspects := by simp [hs, noSuspects, anySuspect]
    pendingStep := by simp [hp] }

/-- The laws of the DAU's items hold in its idle values outside UNDOCKING. -/
theorem still_dockLaw {s : State} (h : s.dau = idleDock) (hu : s.rct.state ≠ .undocking) (hb : s.rfx.approachBumps = 0) : DockLaw s :=
  { timer := by simp [h, idleDock]
    reverse := by simp [h, idleDock, hu]
    search := by simp [h, idleDock]
    contact := by simp [h, idleDock]
    wait := by simp [h, idleDock]
    bumps := by simp [hb] }

theorem witness_ReplyAdvancesTheSegment :
    let s := driving 100 100 onFloor
    PhaseLaw s ∧ DockLaw s ∧ s.mgt.current.isSome ∧ s.rct.state = .run ∧ s.mgt.completed ≤ 65535 ∧
      512 * 4000 < 2048 * 2000 ∧ 2048 * 2000 ≤ 512 * 8000 :=
  ⟨still_phaseLaw rfl rfl rfl rfl (by decide) (by decide), still_dockLaw rfl (by decide) rfl, rfl, rfl, by decide, by decide,
    by decide⟩

/-- UNDOCKING with its reverse measure. -/
def undocking : State :=
  { inState .undocking with dau := { idleDock with reverse := some { travel := 0, start := 0 } } }

/-- REFLEX in a phase. -/
def inReflex (p : ReflexPhase) : State := { inState .reflex with rfx := { idle.rfx with phase := p } }

/-- APPROACH with the DAU's record. -/
def inApproach (d : DockUnit) : State := { inState .approach with dau := d }

/-- REFLEX in BACK. -/
def inBack : State := inReflex (.back (.bump .left) { travel := 0, start := 0 })

/-- APPROACH in TRACK. -/
def tracking : State := inApproach { idleDock with phase := .track, lastSector := some .centre, beaconTimer := some 0 }

/-- APPROACH in BUMP_REVERSE. -/
def bumpReversing : State := inApproach { idleDock with phase := .bumpReverse, reverse := some { travel := 0, start := 0 } }

theorem undocking_laws : PhaseLaw undocking ∧ DockLaw undocking := by
  constructor <;> constructor <;> decide

theorem inBack_laws : PhaseLaw inBack ∧ DockLaw inBack := by
  constructor <;> constructor <;> decide

theorem bumpReversing_laws : PhaseLaw bumpReversing ∧ DockLaw bumpReversing := by
  constructor <;> constructor <;> decide

theorem tracking_laws : PhaseLaw tracking ∧ DockLaw tracking := by
  constructor <;> constructor <;> decide

theorem witness_ReplyAdvancesTheOtherMeasures :
    (PhaseLaw inBack ∧ DockLaw inBack) ∧ (PhaseLaw bumpReversing ∧ DockLaw bumpReversing) ∧
      (PhaseLaw undocking ∧ DockLaw undocking) ∧ inBack.rct.state ≠ .loading ∧
      2048 * inBack.tbs.cal.backOffDistance ≤ 0 + 200 * inBack.tbs.cal.tickLength ∧
      0 + 199 * inBack.tbs.cal.tickLength < 2048 * inBack.tbs.cal.backOffDistance ∧
      2048 * undocking.tbs.cal.undockDistance ≤ 0 + 1200 * undocking.tbs.cal.tickLength :=
  ⟨inBack_laws, bumpReversing_laws, undocking_laws, by decide, by decide, by decide, by decide⟩

theorem witness_FiringActsByRunState :
    SegmentState onFloor.rct.state ∧ undocking.rct.state = .undocking ∧ tracking.rct.state = .approach ∧
      (∀ side, Hazard.jam ≠ .bump side) ∧ inBack.rct.state = .reflex ∧ (inState .lifted).rct.state = .lifted ∧ (inState .hold).rct.state = .hold :=
  ⟨Or.inl rfl, rfl, rfl, fun _ h => by (cases h), rfl, rfl, rfl⟩

/-- RUN with a current segment of 5 mm, the successor waiting. -/
def finishing (r : RunState) : State :=
  let g : Segment := { vL := 100, vR := 100, kind := .dist, limit := 5, brush := none, tag := none }
  { inState r with mgt := { idle.mgt with queue := [g], current := some g.begin } }

theorem witness_StallFiresWhileArmed :
    (onFloor.rct.state ≠ .loading ∧ onFloor.rct.state ≠ .lifted ∧ onFloor.rct.state ≠ .fault ∧ onFloor.mgt.current = none ∧
        onFloor.rfx.phase = .none ∧ onFloor.rfx.suspects = noSuspects ∧ onFloor.dau.reverse = none ∧
        onFloor.rfx.armed.stallLeft = true ∧ (inState .lifted).rct.state = .lifted ∧
        { allArmed with stallRight := false }.stallRight = false) ∧
      (PhaseLaw inBack ∧ DockLaw inBack ∧ 2048 * inBack.tbs.cal.backOffDistance ≤ 0 + 200 * inBack.tbs.cal.tickLength) ∧
      (PhaseLaw undocking ∧ DockLaw undocking ∧
        2048 * undocking.tbs.cal.undockDistance ≤ 0 + 1200 * undocking.tbs.cal.tickLength) ∧
      (PhaseLaw (finishing .run) ∧ DockLaw (finishing .run) ∧ SegmentState (finishing .run).rct.state ∧
        (finishing .run).mgt.current.isSome ∧ (finishing .step).rct.state = .step ∧
        2048 * 5 ≤ 0 + 20 * (finishing .run).tbs.cal.tickLength) :=
  ⟨by decide, ⟨inBack_laws.1, inBack_laws.2, by decide⟩, ⟨undocking_laws.1, undocking_laws.2, by decide⟩,
    ⟨still_phaseLaw rfl rfl rfl rfl (by decide) (by decide), still_dockLaw rfl (by decide) rfl, Or.inl rfl, rfl, rfl, by decide⟩⟩

theorem witness_BrushStatusConfirmsAndJamFires :
    idle.rct.state ≠ .loading ∧ idle.dli.reservation = none ∧ idle.rfx.armed.jam = true ∧
      ∃ d : DriveLink, d.reservation = some { commanded := .lift, sentAt := 0 } ∧ d.pendingBrush = some .low :=
  ⟨by decide, rfl, rfl, { idle.dli with reservation := some { commanded := .lift, sentAt := 0 }, pendingBrush := some .low }, rfl, rfl⟩

/-- `KeptSuspicions`, computed. -/
def keptNow (s : State) (f : SenseFrame) : Bool :=
  [CliffSensor.fl, .fr, .sl, .sr].all (fun x => (s.rfx.suspects.get x).all (fun m =>
    decide (reflectance f x < s.tbs.cal.cliffThreshold) && decide (m.travel < 2048 * s.tbs.cal.confirmDistance) &&
      decide ((s.pot.timeCount - m.start).toNat < 2 * s.tbs.cal.confirmTime)))

theorem kept_of {s : State} {f : SenseFrame} (h : keptNow s f = true) : KeptSuspicions s f := by
  intro x m hm
  have hx := List.all_eq_true.1 h x (by cases x <;> decide)
  simp only [hm, Option.all_some, Bool.and_eq_true, decide_eq_true_eq] at hx
  exact ⟨hx.1.1, fun hr => by rcases hr with hr | hr <;> omega⟩

/-- `SuspicionConfirmed`, computed. -/
def confirmedNow (f : SenseFrame) (t : State) (x : CliffSensor) : Bool :=
  (t.rfx.suspects.get x).any (fun m =>
    decide (reflectance f x < t.tbs.cal.cliffThreshold) && (decide (2048 * t.tbs.cal.confirmDistance ≤ m.travel) ||
      decide (2 * t.tbs.cal.confirmTime ≤ (t.pot.timeCount - m.start).toNat)))

theorem confirmed_iff {f : SenseFrame} {t : State} {x : CliffSensor} : SuspicionConfirmed f t x ↔ confirmedNow f t x = true := by
  simp [SuspicionConfirmed, confirmedNow, Ripe, Option.any_eq_true]

/-- No suspicion is confirmed, from the computed form. -/
theorem noneConfirmed_of {f : SenseFrame} {t : State} (h : [CliffSensor.fl, .fr, .sl, .sr].any (confirmedNow f t) = false) :
    ∀ x, ¬SuspicionConfirmed f t x := by
  intro x hx
  have := List.any_eq_false.1 h x (by cases x <;> decide)
  exact this (confirmed_iff.1 hx)

/-- Both bumpers and the left wheel drop, with FL low. -/
def manyInputs : SenseFrame := { clearFrame with cliffFL := 39, bumperLeft := true, bumperRight := true, dropLeft := true }

theorem witness_BumpersAndDropsFireWhileArmed :
    (clearFrame.wellFormed = true ∧ manyInputs.wellFormed = true ∧ (manyInputs.dropLeft && manyInputs.dropRight) = false) ∧
      (Settled idle clearFrame ∧ idle.rct.state ≠ .loading ∧ idle.rct.state ≠ .lifted ∧ idle.rct.state ≠ .homing ∧
        idle.rct.state ≠ .approach ∧ idle.rct.state ≠ .docked) ∧
      (KeptSuspicions (inState .hold) manyInputs ∧ firing (inState .docked) manyInputs = [.drop .left, .bump .both, .cliff .fl] ∧
        KeptSuspicions (inState .docked) manyInputs) ∧
      (firing inBack manyInputs = .drop .left :: [.bump .both, .cliff .fl] ∧ inBack.rct.state = .reflex) ∧
      (firing onFloor manyInputs = .drop .left :: [.bump .both, .cliff .fl] ∧ SegmentState onFloor.rct.state ∧
        ∀ x, Hazard.drop .left ≠ .cliff x) ∧
      (firing tracking { clearFrame with dropRight := true } = .drop .right :: [] ∧ tracking.rct.state = .approach ∧
        ∀ side, Hazard.drop .right ≠ .bump side) ∧
      (inState .fault).rct.state = .fault :=
  ⟨⟨by decide, by decide, rfl⟩,
    ⟨⟨rfl, by decide, kept_of (by decide)⟩, by decide, by decide, by decide, by decide, by decide⟩,
    ⟨kept_of (by decide), by decide, kept_of (by decide)⟩, ⟨by decide, rfl⟩,
    ⟨by decide, Or.inl rfl, fun _ h => (by cases h)⟩, ⟨by decide, rfl, fun _ h => (by cases h)⟩, rfl⟩

/-- A frame with FL one below the default threshold. -/
def lowFL : SenseFrame := { clearFrame with cliffFL := 39 }

/-- The default calibration is in range. -/
theorem default_inRange : State.reset.tbs.cal.InRange := by
  constructor <;> first | decide | (constructor <;> decide)

/-- The default dock record is in range. -/
theorem default_dock : State.reset.tbs.dock.InRange := by
  refine ⟨?_, ?_, ?_, ?_, ?_⟩ <;> decide

theorem default_tables {s : State} (h : s.tbs = State.reset.tbs) : TableLaw s := by
  constructor <;> rw [h]
  · exact ⟨by decide, by decide⟩
  · intro k; cases k <;> decide
  · exact ⟨by decide, by decide, by decide⟩
  · exact default_inRange
  · exact default_dock

theorem onRug_tables (edge : Bool) (west : Tile) : TableLaw (onRug edge west) where
  response := by
    show ResponseInRange (withRug edge onFloor).tbs.response
    cases edge <;> exact ⟨by decide, by decide⟩
  learn := (default_tables (s := idle) rfl).learn
  braking := (default_tables (s := idle) rfl).braking
  cal := default_inRange
  dock := default_dock

/-- Whether the class of a cell near (128, 201) is edge, none for a cell that the window does not hold. -/
def edgeNear (s : State) (d : Int × Int) : Option Bool :=
  (cellAt (128 + d.1) (201 + d.2)).bind (fun c => (classAt s c).map (fun cls => s.tbs.response[cls].edge))

/-- The own cell of FL in the tests is (128, 201). -/
theorem test_ownCell_FL : offsetCell onFloor.pot.pose.base (sensorOffset onFloor.tbs.cal .fl).1 (sensorOffset onFloor.tbs.cal .fl).2 =
    ⟨128, 201⟩ := by decide +kernel

theorem allConfirm_nil (s : State) : AllConfirm [] s := fun before _ _ h => by cases before <;> cases h

theorem allConfirm_single {x : CliffSensor} {s : State} (h : (judgeTrust x s).1 = true) : AllConfirm [x] s := by
  intro before y after he
  match before, he with
  | [], he => cases he; exact h
  | [_], he => cases he
  | _ :: _ :: _, he => cases he

/-- What CliffFiresByTrust asks of the judgement: each kind of own cell, and of the cells near it. -/
theorem witness_CliffFiresByTrust :
    (TableLaw onFloor ∧ (inState .run).pot.pose.valid = false ∧ onFloor.pot.pose.valid = true ∧
        classAt (posed 100000 160000 0 (inState .run)) ⟨128, 201⟩ = none ∧
        classAt onFloor ⟨128, 201⟩ = some 0 ∧ onFloor.tbs.response[(0 : Nat)].trust = .immediate) ∧
      (let s := onRug false (plainTile ⟨0, 7, 12⟩ 1 0)
       TableLaw s ∧ classAt s ⟨128, 201⟩ = some 2 ∧ s.tbs.response[(2 : Nat)].trust = .confirm ∧
         ∀ dc ∈ [(-2 : Int), -1, 0, 1, 2], ∀ dr ∈ [(-2 : Int), -1, 0, 1, 2], edgeNear s (dc, dr) = some false) ∧
      (TableLaw (onRug true (plainTile ⟨0, 7, 12⟩ 1 0)) ∧ edgeNear (onRug true (plainTile ⟨0, 7, 12⟩ 1 0)) (0, 0) = some true) ∧
      (edgeNear (onRug false ((plainTile ⟨0, 7, 12⟩ 1 0).write 126 9)) (-2, -2) = some true ∧
        edgeNear (holding [.clean rugTile] (withRug false onFloor)) (-2, -2) = none) ∧
      (lowFL.wellFormed = true ∧ (lowFL.dropLeft && lowFL.dropRight) = false ∧
        firing onFloor lowFL = ([] ++ CliffSensor.fl :: []).map Hazard.cliff ∧ AllConfirm [] (sensed lowFL onFloor) ∧
        (judgeTrust .fl (sensed lowFL onFloor)).1 = false ∧ SegmentState onFloor.rct.state) ∧
      (let s := onRug false (plainTile ⟨0, 7, 12⟩ 1 0)
       let f := { lowFL with cliffFR := 39, cliffSL := 0 }
       f.wellFormed = true ∧ firing s f = ([CliffSensor.fl] ++ CliffSensor.fr :: [CliffSensor.sl]).map Hazard.cliff ∧ AllConfirm [.fl] (sensed f s) ∧
         (judgeTrust .fr ([CliffSensor.fl].foldl suspicionOpened (sensed f s))).1 = false ∧
         firing s lowFL = (CliffSensor.fl :: []).map Hazard.cliff ∧ AllConfirm [.fl] (sensed lowFL s) ∧ KeptSuspicions s lowFL) ∧
      (firing tracking { lowFL with cliffSR := 39 } = (CliffSensor.fl :: [CliffSensor.sr]).map Hazard.cliff ∧ tracking.rct.state = .approach) ∧
      (firing inBack lowFL = (CliffSensor.fl :: []).map Hazard.cliff ∧ inBack.rct.state = .reflex) ∧
      (firing (inState .docked) lowFL = (CliffSensor.fl :: []).map Hazard.cliff ∧ KeptSuspicions (inState .docked) lowFL) :=
  ⟨⟨default_tables rfl, rfl, rfl, by decide +kernel, by decide +kernel, by decide⟩,
    ⟨onRug_tables _ _, by decide +kernel, by decide, by decide +kernel⟩, ⟨onRug_tables _ _, by decide +kernel⟩,
    ⟨by decide +kernel, by decide +kernel⟩,
    ⟨by decide, rfl, by decide, allConfirm_nil _, by decide +kernel, Or.inl rfl⟩,
    ⟨by decide, by decide +kernel, allConfirm_single (by decide +kernel), by decide +kernel, by decide +kernel,
      allConfirm_single (by decide +kernel), kept_of (by decide)⟩,
    ⟨by decide, rfl⟩, ⟨by decide, rfl⟩, ⟨by decide, kept_of (by decide)⟩⟩

/-- A state with suspicions open, their sensors disarmed. -/
def suspicious (p : PerSensor (Option Measure)) (s : State) : State :=
  { s with rfx := { s.rfx with
      suspects := p
      armed := { s.rfx.armed with
        cliff := { fl := p.fl.isNone, fr := p.fr.isNone, sl := p.sl.isNone, sr := p.sr.isNone } } } }

/-- RUN with FL's suspicion open. -/
def suspecting (m : Measure) : State := suspicious (noSuspects.set .fl (some m)) onFloor

/-- A suspicion one unit of travel short of its confirm distance. -/
def young : Measure := { travel := 40959, start := 0 }

/-- A suspicion that has reached its confirm distance. -/
def old : Measure := { travel := 40960, start := 0 }

/-- FL's suspicion young, FR's old: FL is kept, or discounted by a clear reading, and FR confirmed behind it. -/
theorem witness_SuspicionIsConfirmedKeptOrDiscounted :
    (lowFL.wellFormed = true ∧ (lowFL.dropLeft && lowFL.dropRight) = false ∧ SegmentState (suspecting young).rct.state ∧
        firing (suspecting young) lowFL = ([] : List CliffSensor).map Hazard.cliff ∧
        AllConfirm [] (sensed lowFL (suspecting young)) ∧
        (∀ x, ¬SuspicionConfirmed lowFL (sensed lowFL (suspecting young)) x) ∧
        ∀ x, ¬SuspicionConfirmed { lowFL with cliffFL := 40 } (sensed { lowFL with cliffFL := 40 } (suspecting old)) x) ∧
      (SuspicionConfirmed lowFL (sensed lowFL (suspecting old)) .fl ∧
        SuspicionConfirmed lowFL { sensed lowFL (suspecting young) with pot := { onFloor.pot with timeCount := 600 } } .fl ∧
        ¬SuspicionConfirmed lowFL { sensed lowFL (suspecting young) with pot := { onFloor.pot with timeCount := 599 } } .fl) ∧
      (let s := suspicious ((noSuspects.set .fl (some young)).set .fr (some old)) tracking
       let f := { lowFL with cliffFR := 39 }
       f.wellFormed = true ∧ s.rct.state = .approach ∧ firing s f = [] ∧ (sensed f s).rct.state = .approach ∧
         ([.fl, .fr, .sl, .sr] : List CliffSensor) = [.fl] ++ .fr :: [.sl, .sr] ∧
         (∀ y ∈ [CliffSensor.fl], ¬SuspicionConfirmed f (sensed f s) y) ∧ SuspicionConfirmed f (sensed f s) .fr) ∧
      (let s := suspicious (noSuspects.set .fl (some young)) tracking
       let f := { lowFL with bumperLeft := true }
       f.wellFormed = true ∧ firing s f = [.bump .left] ∧ (approachBump .left false (sensed f s)).rct.state = .approach) ∧
      (let s := suspicious (noSuspects.set .sr (some old)) (onRug false (plainTile ⟨0, 7, 12⟩ 1 0))
       let f := { lowFL with cliffSR := 39 }
       firing s f = [CliffSensor.fl].map Hazard.cliff ∧ AllConfirm [.fl] (sensed f s) ∧
         SuspicionConfirmed f ([CliffSensor.fl].foldl suspicionOpened (sensed f s)) .sr) :=
  ⟨⟨by decide, rfl, Or.inl rfl, by decide, allConfirm_nil _, noneConfirmed_of (by decide), noneConfirmed_of (by decide)⟩,
    ⟨confirmed_iff.2 (by decide), confirmed_iff.2 (by decide), fun h => absurd (confirmed_iff.1 h) (by decide)⟩,
    ⟨by decide, rfl, by decide, rfl, rfl,
      fun y hy h => absurd (confirmed_iff.1 h) (by rw [List.mem_singleton.1 hy]; decide), confirmed_iff.2 (by decide)⟩,
    ⟨by decide, by decide, rfl⟩,
    ⟨by decide +kernel, allConfirm_single (by decide +kernel), confirmed_iff.2 (by decide +kernel)⟩⟩

theorem witness_BothWheelsDroppedIsLifted :
    ({ clearFrame with dropLeft := true, dropRight := true } : SenseFrame).wellFormed = true ∧
      onFloor.rct.state ≠ .loading ∧ onFloor.rct.state ≠ .lifted ∧ onFloor.rct.state ≠ .fault ∧
      (inState .lifted).rct.state = .lifted ∧ clearFrame.dropLeft = false ∧ clearFrame.dropRight = false ∧
      ({ clearFrame with dropLeft := true } : SenseFrame).wellFormed = true := by decide

/-- A frame whose centre receiver sees the default dock code. -/
def beaconFrame : SenseFrame := { clearFrame with beacon := some ⟨false, true, false, 0⟩ }

/-- The hand-over with an open suspicion that stays open, and DOCKED at the fourth and fifth frame without contact. -/
theorem witness_HomingHandsOverAndDockedWatches :
    (let s := suspicious (noSuspects.set .fl (some young)) (inState .homing)
     let f := { beaconFrame with cliffFL := 39 }
     f.wellFormed = true ∧ Settled s f ∧ s.rct.state = .homing ∧ s.rfx.suspects.fl = some young ∧
       f.beacon = some ⟨false, true, false, 0⟩ ∧ 0 = s.tbs.dock.code ∧ s.pot.pose.valid = false) ∧
      (let s := posed 24000 0 0 (inState .homing)
       (((s.pot.pose.x / 16 : Nat) : Int) - s.tbs.dock.x) * (((s.pot.pose.x / 16 : Nat) : Int) - s.tbs.dock.x) ≤
           (s.tbs.cal.approachRadius : Int) * s.tbs.cal.approachRadius ∧
         ¬((1501 : Int) * 1501 ≤ (s.tbs.cal.approachRadius : Int) * s.tbs.cal.approachRadius) ∧ s.pot.pose.valid = true) ∧
      (Settled (inState .homing) clearFrame ∧ clearFrame.beacon = none) ∧
      (Settled (inState .docked) clearFrame ∧ (inState .docked).rct.state = .docked ∧ clearFrame.contact = false ∧
        (inState .docked).dau.contactCount < 4 ∧ 4 ≤ { idleDock with contactCount := 4 }.contactCount) ∧
      (inState .run).rct.state ≠ .homing ∧ (inState .run).rct.state ≠ .approach ∧ (inState .run).rct.state ≠ .docked :=
  ⟨⟨by decide, ⟨rfl, by decide, kept_of (by decide)⟩, rfl, rfl, rfl, rfl, rfl⟩, ⟨by decide, by decide, rfl⟩,
    ⟨⟨rfl, by decide, kept_of (by decide)⟩, rfl⟩,
    ⟨⟨rfl, by decide, kept_of (by decide)⟩, rfl, rfl, by decide, by decide⟩, by decide, by decide, by decide⟩

/-- APPROACH in SEARCH with a turn sum. -/
def searching (sum : Nat) : State := inApproach { idleDock with phase := .search, lastSector := some .centre, searchTurn := sum }

theorem witness_ApproachFollowsTheBeacon :
    (Settled tracking clearFrame ∧ clearFrame.wellFormed = true ∧ tracking.rct.state = .approach ∧ tracking.dau.phase = .track ∧
        3 + 1 < 5) ∧
      ((searching 4095).dau.phase = .search ∧ Settled (searching 4095) { clearFrame with yaw := 1 } ∧
        seenSector (searching 4095) { clearFrame with yaw := 1 } = none ∧
        4096 ≤ (searching 4095).dau.searchTurn + (1 : Int).natAbs ∧
        ¬4096 ≤ (searching 4095).dau.searchTurn + (0 : Int).natAbs) ∧
      (Settled (searching 4095) beaconFrame ∧ beaconFrame.wellFormed = true ∧
        seenSector (searching 4095) beaconFrame = some .centre) ∧
      (Settled (suspicious (noSuspects.set .fl (some young)) tracking) lowFL ∧ lowFL.wellFormed = true) ∧
      bumpReversing.dau.phase = .bumpReverse :=
  ⟨⟨⟨rfl, by decide, kept_of (by decide)⟩, by decide, rfl, rfl, by decide⟩,
    ⟨rfl, ⟨rfl, by decide, kept_of (by decide)⟩, rfl, by decide, by decide⟩,
    ⟨⟨rfl, by decide, kept_of (by decide)⟩, by decide, by decide⟩, ⟨⟨rfl, by decide, kept_of (by decide)⟩, by decide⟩, rfl⟩

/-- APPROACH in CONTACT with an ID wait count. -/
def contacting (wait : Nat) : State := inApproach { idleDock with phase := .contact, contactCount := 5, idWait := wait }

theorem witness_ContactIsJudgedByDockId :
    let f := { clearFrame with contact := true }
    (f.wellFormed = true ∧ Settled (contacting 9) f ∧ (contacting 9).rct.state = .approach ∧
        (contacting 9).dau.phase = .contact ∧ f.contact = true ∧ clearFrame.contact = false) ∧
      (f.dockId = none ∧ 10 ≤ (contacting 9).dau.idWait + 1 ∧ (contacting 8).dau.idWait + 1 < 10) ∧
      (({ f with dockId := some 15 } : SenseFrame).wellFormed = true ∧ 15 ≠ (contacting 9).tbs.dock.code ∧
        ({ f with dockId := some 0 } : SenseFrame).dockId = some (contacting 9).tbs.dock.code ∧
        (contacting 9).tbs.dock.level = (contacting 9).pot.pose.level) ∧
      (let s := inApproach { idleDock with phase := .track, contactCount := 4, beaconTimer := some 0 }
       let g := { beaconFrame with contact := true }
       s.dau.phase = .track ∧ 4 ≤ s.dau.contactCount ∧ g.contact = true ∧ seenSector s g = some .centre ∧ Settled s g ∧
         g.wellFormed = true ∧ ({ g with dockId := some 0 } : SenseFrame).wellFormed = true) ∧
      ((searching 0).dau.phase = .search ∧ seenSector (searching 0) f = none) ∧
      (1 ≠ mixed.pot.pose.level ∧ mixed.twn.slot 2 = .marked (plainTile ⟨0, 3, 1⟩ 1 0) oneMark ∧
        ∀ i, (idle.twn.slot i).isMarked = false) :=
  ⟨⟨by decide, ⟨rfl, by decide, kept_of (by decide)⟩, rfl, rfl, rfl, rfl⟩, ⟨rfl, by decide, by decide⟩,
    ⟨by decide, by decide, rfl, rfl⟩,
    ⟨rfl, by decide, rfl, by decide, ⟨rfl, by decide, kept_of (by decide)⟩, by decide, by decide⟩, ⟨rfl, rfl⟩,
    ⟨by decide, rfl, by decide⟩⟩

/-- An approach with two bumps counted. -/
def twiceBumped : State := { tracking with rfx := { tracking.rfx with approachBumps := 2 } }

theorem witness_ApproachBumpsHaltOrFail :
    let f := { clearFrame with bumperLeft := true }
    let g := { f with cliffFL := 39 }
    (f.wellFormed = true ∧ g.wellFormed = true ∧ tracking.rct.state = .approach ∧ (f.dropLeft && f.dropRight) = false) ∧
      (firing tracking f = .bump .left :: [] ∧ firing tracking g = .bump .left :: [.cliff .fl] ∧
        firing bumpReversing { f with contact := true } = .bump .left :: []) ∧
      ((approachBump .left false (sensed f tracking)).rct.state = .approach ∧ KeptSuspicions tracking f ∧
        min 3 (tracking.rfx.approachBumps + 1) < 3) ∧
      (firing twiceBumped g = .bump .left :: [.cliff .fl] ∧ min 3 (twiceBumped.rfx.approachBumps + 1) = 3 ∧
        (approachBump .left false (sensed g twiceBumped)).rct.state = .hold ∧
        (approachBump .left true (sensed g twiceBumped)).rct.state = .approach) :=
  ⟨⟨by decide, by decide, rfl, rfl⟩, ⟨by decide, by decide, by decide⟩, ⟨rfl, kept_of (by decide), by decide⟩,
    ⟨by decide, by decide, rfl, rfl⟩⟩

/-- A state at a later time count. -/
def atTime (t : Time) (s : State) : State := { s with pot := { s.pot with timeCount := t } }

theorem witness_MovesEndByTimeAndOnlyWhenDue :
    (PhaseLaw (atTime 2000 inBack) ∧ DueAt (atTime 2000 inBack) .backOffTimeLimit) ∧
      (PhaseLaw (atTime 1000 tracking) ∧ DueAt (atTime 1000 tracking) .lostBeaconExpiry) ∧
      (PhaseLaw (atTime 2000 bumpReversing) ∧ DueAt (atTime 2000 bumpReversing) .bumpReverseTimeLimit) ∧
      (PhaseLaw (atTime 6000 undocking) ∧ DueAt (atTime 6000 undocking) .undockTimeLimit) ∧
      (isExpiry .undockTimeLimit = true ∧ ¬DueAt (atTime 5999 undocking) .undockTimeLimit) := by
  refine ⟨⟨⟨by decide, by decide, by decide, by decide⟩, .bump .left, _, rfl, by decide⟩,
    ⟨⟨by decide, by decide, by decide, by decide⟩, rfl, 0, rfl, by decide⟩,
    ⟨⟨by decide, by decide, by decide, by decide⟩, rfl, _, rfl, by decide⟩,
    ⟨⟨by decide, by decide, by decide, by decide⟩, rfl, _, rfl, by decide⟩, rfl, ?_⟩
  rintro ⟨-, m, hm, h⟩
  cases hm
  exact absurd h (by decide)

theorem witness_LineAndRequestTimeouts :
    (mixed.twn.slot 0 = .pending ⟨0, 1, 1⟩ 0 ∧ DueAt (atTime 500 mixed) (.requestTimeout 0)) ∧
      (∃ s : State, s.dli.reservation = some { commanded := .run, sentAt := 0 } ∧ DueAt s .brushTimeout) ∧
      (DueAt (atTime 100 idle) (.linkTimeout .drive) ∧ idle.rct.state ≠ .fault) ∧
      (∃ s : State, s.snp.watch = .waiting 0 ∧ DueAt s (.linkTimeout .sense)) :=
  ⟨⟨rfl, _, _, rfl, by decide⟩,
    ⟨{ atTime 400 idle with dli := { idle.dli with reservation := some { commanded := .run, sentAt := 0 } } }, rfl, _, rfl, by decide⟩,
    ⟨⟨0, Or.inr rfl, by decide⟩, by decide⟩,
    ⟨{ atTime 100 idle with snp := { idle.snp with watch := .waiting 0 } }, rfl, 0, Or.inl rfl, by decide⟩⟩

theorem due_at_20 (s : State) (h : s.mgt.period = some { start := 0, length := 10 }) (ht : s.pot.timeCount = 20) :
    DueAt s .controlPeriodExpiry := ⟨_, h, by rw [ht]; decide⟩

theorem witness_ExpirySendsSetpointThenBrush :
    DueAt (atTime 20 idle) .controlPeriodExpiry ∧ StillState idle.rct.state ∧ PhaseLaw idle ∧ idle.rct.modeQueue = [] ∧
      idle.dli.reservation = none ∧ DriveQueueLaw (atTime 20 idle) :=
  ⟨due_at_20 _ rfl rfl, Or.inl rfl, still_phaseLaw rfl rfl rfl rfl (by decide) (by decide), rfl, rfl, fun _ => rfl⟩

theorem witness_ExpiryRunsTheGateThenTheSegment :
    let s := atTime 20 (driving 100 100 onFloor)
    DueAt s .controlPeriodExpiry ∧ s.mgt.period = some { start := 0, length := 10 } ∧ s.rct.modeQueue = [] ∧
      (∀ h, s.rfx.phase ≠ .halt h) ∧ s.dau.phase ≠ .bumpHalt ∧ s.mgt.completed ≤ 65535 ∧ SegmentState s.rct.state ∧
      (onFloor.mgt.current = none ∧ SegmentState onFloor.rct.state) ∧
      (9990 + 10 ≤ 10000 ∧ SegmentState (inState .step).rct.state) :=
  ⟨due_at_20 _ rfl rfl, rfl, rfl, fun h e => (by cases e), by decide, by decide, Or.inl rfl, ⟨rfl, Or.inl rfl⟩,
    ⟨by decide, Or.inr (Or.inr (Or.inl rfl))⟩⟩

theorem witness_ExpiryEndsTheHalt :
    (let s := atTime 20 (inReflex (.halt (.bump .left)))
     DueAt s .controlPeriodExpiry ∧ s.rct.modeQueue = [] ∧ PhaseLaw s ∧ s.rfx.phase = .halt (.bump .left)) ∧
      (let s := atTime 20 (inApproach { idleDock with phase := .bumpHalt })
       DueAt s .controlPeriodExpiry ∧ s.rct.modeQueue = [] ∧ PhaseLaw s ∧ s.dau.phase = .bumpHalt) :=
  ⟨⟨due_at_20 _ rfl rfl, rfl, ⟨by decide, by decide, by decide, by decide⟩, rfl⟩,
    ⟨due_at_20 _ rfl rfl, rfl, ⟨by decide, by decide, by decide, by decide⟩, rfl⟩⟩

/-- A state with one mode command waiting. -/
def commanded (k : ModeKind) (s : State) : State :=
  { s with rct := { s.rct with modeQueue := [{ kind := k, factor := if k = .creep then 2 else 0 }] } }

/-- RUN with no current segment, two TIME segments, the head of `limit` ms, and a period of 10 ms that has ended at 10 ms. -/
def timed (limit : Nat) : State :=
  let g : Segment := { vL := 0, vR := 0, kind := .time, limit := limit, brush := none, tag := none }
  let s := atTime 20 onFloor
  { s with mgt := { s.mgt with current := none, queue := [g, { g with limit := 50 }], period := some { start := 0, length := 10 } } }

/-- A Step in RUN with no current segment runs the head in either order, and its successor waits in HOLD (R114). -/
theorem test_step_runs_the_head : ∀ takeFirst ∈ [true, false],
    let u := expirePeriod { takeFirst := takeFirst, phaseFirst := true } 10 (commanded .step (timed 10))
    u.rct.state = .hold ∧ u.mgt.completed = 1 ∧ u.mgt.current = none ∧ u.mgt.queue.map (·.limit) = [50] := by
  decide +kernel

theorem witness_ModeCommandIsTakenByLegality :
    ((commanded .hold idle).rct.modeQueue = { kind := .hold, factor := 0 } :: [] ∧ legalityTable true .idle .hold = [] ∧
        legalityTable true .run .hold ≠ [] ∧ legalityTable true .hold .resume ≠ [] ∧ legalityTable true .run .creep ≠ [] ∧
        legalityTable true .hold .step ≠ [] ∧ legalityTable true .idle .returnHome ≠ [] ∧
        legalityTable true .docked .undock ≠ [] ∧ legalityTable true .fault .stop ≠ [] ∧
        legalityTable false .fault .stop = []) ∧
      (∀ n ∈ [10, 11], DueAt (commanded .step (timed n)) .controlPeriodExpiry ∧
        (commanded .step (timed n)).mgt.period = some { start := 0, length := 10 } ∧
        (commanded .step (timed n)).rct.modeQueue = { kind := .step, factor := 0 } :: [] ∧
        (commanded .step (timed n)).rct.state = .run ∧ (timed n).mgt.current = none ∧
        (timed n).mgt.queue.head?.map (·.limit) = some n ∧ (timed n).mgt.queue.head?.map (·.kind) = some .time) ∧
      (commanded .step onFloor).mgt.current = none ∧ (commanded .step onFloor).mgt.queue = [] ∧
      (∃ r, (driving 100 100 onFloor).mgt.current = some r ∧ r.segment.kind = .dist ∧ r.travel < 2048 * r.segment.limit) := by
  refine ⟨by decide, fun n _ => ⟨due_at_20 _ rfl rfl, rfl, rfl, rfl, rfl, rfl, rfl⟩, rfl, rfl, _, rfl, rfl, by decide⟩

theorem witness_GateSpinsOnZeroCentreSpeed :
    gateSource (driving (-100) 101 onFloor) = some (-100, 101) ∧ ((-100 : Int) + 101).tdiv 2 = 0 ∧
      gateSource idle = none ∧ StillState idle.rct.state ∧ inBack.rct.state = .reflex ∧
      tracking.dau.lastSector = some .centre :=
  ⟨rfl, by decide, rfl, Or.inl rfl, rfl, rfl⟩

theorem witness_ScanFindsTheFirstStop :
    (WindowLaw mixed ∧ (mixed.twn.slot 1).tile? = some (plainTile ⟨0, 2, 1⟩ 1 0) ∧
        (⟨0, 2, 1⟩ : TileKey) = Cell.key mixed.pot.pose.level ⟨32, 16⟩ ∧
        mixed.twn.slot 0 = .pending (Cell.key mixed.pot.pose.level ⟨16, 16⟩) 0 ∧
        ∀ i, (mixed.twn.slot i).key? ≠ some (Cell.key mixed.pot.pose.level ⟨1023, 1023⟩)) ∧
      (280 : Int) ≠ 0 ∧ stairAhead.pot.pose.valid = true ∧ stairAhead.tbs.response[15].blocking = true ∧
      stairAhead.tbs.cal.lookAhead ≤ 16 ∧ (scan 280 stairAhead).1 = (6, 160) ∧ (scan 280 onFloor).1 = (0, 300) := by
  refine ⟨⟨mixed_windowLaw, rfl, rfl, rfl, noSlot_of (by decide +kernel)⟩, ?_⟩
  decide +kernel

theorem witness_GateLimitsTheCentreSpeed :
    gateSource stairAhead = some (300, 260) ∧ ((300 : Int) + 260).tdiv 2 ≠ 0 ∧ stairAhead.pot.pose.valid = true ∧
      gateSource (driving 200 200 (inState .run)) = some (200, 200) ∧ (inState .run).pot.pose.valid = false := by decide

theorem witness_BrushWishIsTheMostRestrictive :
    (inReflex (.back .jam { travel := 0, start := 0 })).rct.state = .reflex ∧ ¬SegmentState idle.rct.state ∧
      SegmentState onFloor.rct.state := by
  refine ⟨rfl, ?_, Or.inl rfl⟩
  rintro (h | h | h | h) <;> cases h

theorem witness_RequestTakesAnEmptyOrUnpinnedSlot :
    (mixed.twn.slot 0).key? = some ⟨0, 1, 1⟩ ∧ (∀ i, (mixed.twn.slot i).key? ≠ some ⟨0, 9, 9⟩) ∧
      mixed.twn.pendingRequests < 6 ∧ mixed.twn.slot 4 = .empty ∧ (∀ j, j < 4 → (mixed.twn.slot j).isEmpty = false) ∧
      (∀ i, (crowded.twn.slot i).isEmpty = false) ∧ crowded.twn.recency = [] ++ 0 :: (List.finRange 16).tail ∧
      crowded.twn.slot 0 = .clean (plainTile ⟨0, 0, 0⟩ 1 0) ∧ ¬Near crowded.pot.pose ⟨0, 0, 0⟩ := by
  refine ⟨rfl, noSlot_of (by decide +kernel), by decide +kernel, rfl, by decide +kernel, by decide +kernel, by decide +kernel, rfl, ?_⟩
  rintro ⟨-, col, row, ⟨h1, h2⟩, -, h3, -⟩
  have hx : crowded.pot.pose.x = 100000 := rfl
  have hc : col / 16 = 0 := h3
  omega

theorem witness_AgeLookupFindsTheNewestOldEnough :
    let e : HistoryEntry := { stamp := 61240, x := 1, y := 2, heading := 3 }
    let p : PoseTracker := { idle.pot with history := [] ++ e :: [] }
    p.history = [] ++ e :: [] ∧ ((61291 : Time) - e.stamp).toNat = 51 ∧ idle.pot.history = [] := by decide

/-- The mark of a jam at (100 000, 160 000) falls on cell 141 of tile (0, 7, 12). -/
theorem witness_MarkRequestWritesAndRecords :
    WindowLaw onFloor ∧ onFloor.pot.pose.valid = true ∧ onFloor.tbs.learn.entry .jam = some 14 ∧
      (onFloor.twn.slot 0).tile? = some (plainTile ⟨0, 7, 12⟩ 1 0) ∧
      onFloor.tbs.response[(0 : Nat)].blocking = false ∧ (inState .run).pot.pose.valid = false ∧
      (WindowLaw mixed ∧ ∀ i, (mixed.twn.slot i).key? ≠ some ⟨0, 7, 12⟩) ∧
      (let s := holding [.sent (plainTile ⟨0, 7, 12⟩ 1 0) (eightMarks.afterReport 0)] onFloor
       WindowLaw s ∧ s.twn.slot 0 = .sent (plainTile ⟨0, 7, 12⟩ 1 0) (eightMarks.afterReport 0) ∧
         (eightMarks.afterReport 0).eightSentAt = some s.pot.timeCount ∧
         (∀ q ∈ (eightMarks.afterReport 0).records, q.cell ≠ 141) ∧
         (eightMarks.afterReport 0).eightSentAt ≠ some (s.pot.timeCount + 1) ∧
         (recordsWith false (eightMarks.afterReport 0)).length < 8) :=
  ⟨windowLaw_of (by decide +kernel) (by decide +kernel), rfl, rfl, rfl, by decide, rfl,
    ⟨mixed_windowLaw, noSlot_of (by decide +kernel)⟩,
    ⟨windowLaw_of (by decide +kernel) (by decide +kernel), rfl, by decide, by decide, by decide, by decide⟩⟩

theorem witness_ReportIsBuiltAtItsTurn :
    mixed.pli.events = [] ∧ mixed.pli.retries = [] ∧ mixed.pli.answers = [] ∧ mixed.pli.requests = [] ∧ WindowLaw mixed ∧
      MarkedOrderLaw mixed ∧ mixed.mru.reportQueue = (plainTile ⟨0, 3, 1⟩ 1 0).key :: [] ∧
      mixed.twn.slot 2 = .marked (plainTile ⟨0, 3, 1⟩ 1 0) oneMark :=
  ⟨rfl, rfl, rfl, rfl, mixed_windowLaw, ⟨by decide, by decide +kernel⟩, rfl, rfl⟩

theorem witness_TransmittersSendInOrder :
    (raise .bump .none idle).pli.events ≠ [] ∧ idle.pli.leaving = some someFrame ∧ State.reset.pli.leaving = none ∧
      idle.pli.events = [] ∧ idle.pli.statusWaits = false := by decide +kernel

theorem witness_StatusShowsThePartAtItsTurn :
    idle.rct.state ≠ .loading ∧
      ∃ s : State, DueAt s .statusInterval ∧ s.pli.events = [] ∧ s.mru.reportQueue = [] ∧ s.pli.statusWaits = true :=
  ⟨by decide,
    { atTime 10000 idle with
      tbs := { idle.tbs with cal := { idle.tbs.cal with statusInterval := 5000 } }
      pli := { idle.pli with statusWaits := true } },
    ⟨by decide, by decide, by decide⟩, rfl, rfl, rfl⟩

theorem witness_StepKeepsValuesInRange :
    step mixed = .next (tick mixed) ∧ TableLaw mixed ∧ PoseLaw mixed ∧ SegmentLaw mixed ∧ ModeLaw mixed ∧ HistoryLaw mixed ∧
      CountLaw mixed := by
  have hp : mixed.pot.pose.InRange := ⟨by decide, by decide, by decide, by decide⟩
  refine ⟨rfl, default_tables rfl,
    ⟨hp, default_dock⟩, ⟨by decide, fun g h => (by cases h), fun c h => (by cases h)⟩, ⟨by decide, fun c h => (by cases h), by decide, by decide⟩,
    ?_, ⟨by decide, by decide, by decide, by decide, by decide, by decide⟩⟩
  simp [HistoryLaw, mixed, holding, posed, idle, State.reset]

theorem witness_StepKeepsTheWindowLaws :
    step mixed = .next (tick mixed) ∧ WindowLaw mixed ∧ RequestLaw mixed ∧ RecencyLaw mixed :=
  ⟨rfl, mixed_windowLaw, ⟨by decide +kernel, by decide, fun k h => by cases h⟩, ⟨by decide, by decide +kernel⟩⟩

theorem witness_StepKeepsTheMarkLaws :
    step mixed = .next (tick mixed) ∧ WindowLaw mixed ∧ MarksLaw mixed ∧ ReportLaw mixed ∧ MarkedOrderLaw mixed := by
  refine ⟨rfl, mixed_windowLaw, ?_, ⟨by decide, by decide, fun k h => ?_⟩, ⟨by decide, by decide +kernel⟩⟩
  · have hm : oneMark.InRange ∧ recordsWith true oneMark = [] ∧ (oneMark.records ≠ [] ∨ oneMark.overflow) :=
      ⟨⟨by decide, by decide, by decide⟩, by decide, by decide⟩
    intro i
    fin_cases i <;> first | exact hm | exact hm.1 | trivial
  · cases h with
    | head => exact ⟨2, plainTile ⟨0, 3, 1⟩ 1 0, oneMark, rfl, rfl⟩
    | tail _ h => cases h

theorem witness_StepKeepsThePhaseAndQueueLaws :
    (step mixed = .next (tick mixed) ∧ BrushLaw mixed ∧ WaitingLaw mixed ∧ DriveQueueLaw mixed ∧
      LoadingLaw mixed) ∧
      (step undocking = .next (tick undocking) ∧ PhaseLaw undocking ∧ DockLaw undocking) :=
  ⟨⟨rfl, rfl, ⟨by decide, by decide⟩, fun _ => rfl, fun h => by cases h⟩, ⟨rfl, undocking_laws⟩⟩

theorem witness_MarkedTilesAreKept :
    step mixed = .next (tick mixed) ∧ mixed.twn.slot 2 = .marked (plainTile ⟨0, 3, 1⟩ 1 0) oneMark ∧
      mixed.twn.slot 3 = .sent (plainTile ⟨0, 4, 1⟩ 1 0) oneMark ∧ ∀ c rest, mixed.pending ≠ c :: rest :=
  ⟨rfl, rfl, rfl, fun _ _ h => by cases h⟩

theorem witness_FramesDecodeToTheirCommands :
    (Instr.segment 300 260 .dist 2000 none (some 7)).wellFormed = true ∧
      encodeBody (.segment 300 260 .dist 2000 none (some 7)) =
        some (0x01, [0x01, 0x2C, 0x01, 0x04, 0x00, 0x07, 0xD0, 0x02, 0x00, 0x07]) ∧
      State.reset.pli.receiver = .hunting ∧ isPlanFrame .start = true ∧ clearFrame.wellFormed = true := by decide

end Sys2Proof.Tests
end

section
/-! The loaded tables: what a braking load and a calibration load store and answer, and the law of the braking table
(R10, R11, R12). -/

namespace Sys2Proof.Machine

/-! ## Loads that are taken -/

/-- A good Plan Link frame after LOADING is taken, with the arbiter's choice after it (R169, R170). -/
theorem takePlan_of_taken {i : Instr} {s : State} (hs : s.rct.state ≠ .loading) (hi : i.wellFormed = true)
    (act : State → State) : takePlan i act s = arbitrate (act s) := by
  simp [takePlan, hs, hi]

theorem loadBraking_wellFormed {limits : List Nat} {vclear : Nat} (hlen : limits.length = 16)
    (hb : ∀ b ∈ limits, b ≤ 65535) (hv : vclear ≤ 65535) : (Instr.loadBraking limits vclear).wellFormed = true := by
  simpa [Instr.wellFormed, fits16, hlen, hv] using hb

theorem loadCalibration_wellFormed {values : List Int} (hlen : values.length = 35)
    (hv : ∀ v ∈ values, -32768 ≤ v ∧ v ≤ 32767) : (Instr.loadCalibration values).wellFormed = true := by
  simpa [Instr.wellFormed, fitsSigned16, hlen] using hv

@[simp] theorem answerOf_eq_clamped_iff {moved : Bool} : answerOf moved = .clamped ↔ moved = true := by
  cases moved <;> simp [answerOf]

@[simp] theorem answerOf_eq_accepted_iff {moved : Bool} : answerOf moved = .accepted ↔ moved = false := by
  cases moved <;> simp [answerOf]

/-- Stored values differ from the given ones as lists exactly when some numbered value does. -/
theorem ne_iff_exists_getD_ne {α : Type} {n : Nat} {l l' : List α} (h : l.length = n) (h' : l'.length = n) (d : α) :
    l ≠ l' ↔ ∃ k : Fin n, l.getD k d ≠ l'.getD k d := by
  rw [← not_forall_not, not_iff_not]
  refine ⟨fun e k => by simp [e], fun e => List.ext_getElem (h.trans h'.symm) fun k hk hk' => ?_⟩
  simpa [hk, hk'] using e ⟨k, h ▸ hk⟩

/-! ## The braking table (R10) -/

@[simp] theorem pullDown_length (top : Nat) (limits : List Nat) : (pullDown top limits).length = limits.length := by
  induction limits with
  | nil => rfl
  | cons b rest ih => simp [pullDown, ih]

/-- Each stored entry is the given one pulled down to the stored entry above it, the last to `top` (R10 steps 2, 3). -/
theorem pullDown_getD {top : Nat} {limits : List Nat} {k : Nat} (hk : k < limits.length) (d : Nat) :
    (pullDown top limits).getD k d = min (limits.getD k 0) ((pullDown top limits).getD (k + 1) top) := by
  induction limits generalizing k with
  | nil => cases hk
  | cons b rest ih =>
    cases k with
    | zero => simp [pullDown, List.headD_eq_head?_getD, List.head?_eq_getElem?]
    | succ k => simpa [pullDown] using ih (Nat.lt_of_succ_lt_succ hk)

@[simp] theorem brakingTable_vclear (limits : List Nat) (vclear : Nat) :
    (brakingTable limits vclear).vclear = min vclear 500 := rfl

@[simp] theorem brakingTable_limits (limits : List Nat) (vclear : Nat) (k : Fin 16) :
    (brakingTable limits vclear).limits[k] = (pullDown (min vclear 500) limits).getD k 0 := by
  simp [brakingTable]

section
variable {limits : List Nat} (vclear : Nat) (hlen : limits.length = 16)
include hlen

theorem brakingTable_last :
    (brakingTable limits vclear).limits[15] = min (limits.getD 15 0) (brakingTable limits vclear).vclear := by
  have hend : (pullDown (min vclear 500) limits).getD 16 (min vclear 500) = min vclear 500 :=
    List.getD_eq_default _ _ (by simp [hlen])
  calc (brakingTable limits vclear).limits[15]
      = (pullDown (min vclear 500) limits).getD 15 0 := brakingTable_limits limits vclear 15
    _ = min (limits.getD 15 0) (min vclear 500) := by rw [pullDown_getD (by omega), hend]

theorem brakingTable_castSucc (k : Fin 15) :
    (brakingTable limits vclear).limits[k.castSucc] =
      min (limits.getD k 0) (brakingTable limits vclear).limits[k.succ] := by
  have hk : k.val + 1 < (pullDown (min vclear 500) limits).length := by
    simp only [pullDown_length, hlen]
    omega
  rw [brakingTable_limits, brakingTable_limits, Fin.val_castSucc, pullDown_getD (by omega), Fin.val_succ,
    List.getD_eq_getElem _ _ hk, List.getD_eq_getElem _ _ hk]

/-- What a load stores is in order: each entry was pulled down to the one above it, and the last to Vclear (R10). -/
theorem brakingTable_inOrder : (brakingTable limits vclear).InOrder := by
  have hmono : Monotone fun i : Fin 16 => (brakingTable limits vclear).limits[i] :=
    Fin.monotone_iff_le_succ.mpr fun k => (brakingTable_castSucc vclear hlen k).trans_le (min_le_right _ _)
  have hlast : (brakingTable limits vclear).limits[Fin.last 15] ≤ (brakingTable limits vclear).vclear :=
    (brakingTable_last vclear hlen).trans_le (min_le_right _ _)
  exact ⟨fun i j hij => hmono hij, fun i => (hmono (Fin.le_last i)).trans hlast, min_le_right _ _⟩

theorem brakingMoved_iff :
    brakingMoved limits vclear = true ↔
      (brakingTable limits vclear).vclear ≠ vclear ∨
        ∃ k : Fin 16, (brakingTable limits vclear).limits[k] ≠ limits.getD k 0 := by
  have hv : 500 < vclear ↔ min vclear 500 ≠ vclear := by omega
  simp only [brakingMoved, Bool.or_eq_true, decide_eq_true_eq, bne_iff_ne, brakingTable_vclear, brakingTable_limits, hv,
    ne_iff_exists_getD_ne ((pullDown_length _ _).trans hlen) hlen 0]

end

/-! ### What changes the braking table -/

theorem defaultBraking_inOrder : defaultBraking.InOrder := ⟨by decide, by decide, by decide⟩

theorem defaultBraking_slope :
    ∀ k : Fin 16, 2 ≤ k.val → defaultBraking.limits[k] = min 300 (40 * (k.val + 1 - 2)) := by decide

@[simp] theorem takeHead_tbs (s : State) : (takeHead s).tbs = s.tbs := by rw [takeHead_only]

@[simp] theorem offerReport_tbs (k : TileKey) (s : State) : (offerReport k s).tbs = s.tbs := by rw [offerReport_only]

@[simp] theorem recordMark_tbs (i : SlotNo) (r : MarkRecord) (s : State) : (recordMark i r s).tbs = s.tbs := by
  rw [recordMark_only]

@[simp] theorem mergeTile_tbs (i : SlotNo) (t : Tile) (m : Marks) (s : State) : (mergeTile i t m s).tbs = s.tbs := by
  rw [mergeTile_only]

@[simp] theorem queueRetry_tbs (f : RetryFrame) (s : State) : (queueRetry f s).tbs = s.tbs := by rw [queueRetry_only]

@[simp] theorem countLineError_tbs (l : Line) (s : State) : (countLineError l s).tbs = s.tbs := by cases l <;> rfl

/-- A braking load is the only primitive change that writes the braking table. -/
theorem Change.braking_cases {s t : State} (h : Change s t) :
    t.tbs.braking = s.tbs.braking ∨
      ∃ limits vclear, limits.length = 16 ∧ t.tbs.braking = brakingTable limits vclear := by
  cases h with
  | braking limits vclear hlen => exact .inr ⟨limits, vclear, hlen, rfl⟩
  | takeHead => exact .inl (by rw [takeHead_tbs])
  | mark i tile r => exact .inl (by rw [recordMark_tbs])
  | offer i tile m => exact .inl (by rw [offerReport_tbs])
  | retry f => exact .inl (by rw [queueRetry_tbs])
  | lineError l => exact .inl (by rw [countLineError_tbs])
  | _ => exact .inl rfl

theorem Change.keeps_brakingInOrder {s t : State} (h : Change s t) (hs : s.tbs.braking.InOrder) :
    t.tbs.braking.InOrder := by
  rcases h.braking_cases with e | ⟨limits, vclear, hlen, e⟩ <;> rw [e]
  · exact hs
  · exact brakingTable_inOrder vclear hlen

theorem Release.keeps_brakingInOrder {s t : State} (h : Release s t) (hs : s.tbs.braking.InOrder) :
    t.tbs.braking.InOrder := by
  cases h with
  | dropSent => exact hs
  | merge => rwa [mergeTile_tbs]
  | powerOn => exact defaultBraking_inOrder
  | restart => exact hs

theorem step_keeps_brakingInOrder {s t : State} (h : step s = .next t) (hs : s.tbs.braking.InOrder) :
    t.tbs.braking.InOrder :=
  step_keeps (P := fun u => u.tbs.braking.InOrder) (fun _ _ => Change.keeps_brakingInOrder)
    (fun _ _ => Release.keeps_brakingInOrder) (fun _ _ hu => hu) (fun _ _ _ hu => hu) h hs

/-- Settles O17. The step lemma needs only that a braking load stores a table in order and that every other primitive
change keeps the table or stores the default one. -/
theorem brakingTableStaysInOrder : Obligations.BrakingTableStaysInOrder := by
  refine ⟨fun limits vclear s hs hlen hb hv => ?_, fun s t h => ?_, defaultBraking_inOrder,
    fun s t hs h => step_keeps_brakingInOrder h hs⟩
  · have hmoved := brakingMoved_iff vclear hlen
    refine ⟨brakingTable limits vclear, answerOf (brakingMoved limits vclear), ?_, rfl, brakingTable_last vclear hlen,
      brakingTable_castSucc vclear hlen, fun h => ?_, fun ⟨hvclear, hlimits⟩ => ?_⟩
    · exact congrArg Host.Outcome.next (takePlan_of_taken hs (loadBraking_wellFormed hlen hb hv) _)
    · exact answerOf_eq_clamped_iff.mpr (hmoved.mpr h)
    · refine answerOf_eq_accepted_iff.mpr (Bool.eq_false_iff.mpr fun h => ?_)
      rcases hmoved.mp h with hne | ⟨k, hne⟩
      · exact hne hvclear
      · exact hne (hlimits k)
  · cases h
    exact ⟨rfl, rfl, rfl, defaultBraking_slope⟩

/-! ## The calibration record (R11, R12) -/

theorem clampValues_length {values : List Int} (hlen : values.length = 35) : (clampValues values).length = 35 := by
  simp [clampValues, hlen, calibrationRanges]

theorem clampValues_getD_eq_heldToRange {values : List Int} (hlen : values.length = 35) (n : Fin 35) :
    (clampValues values).getD n 0 = heldToRange n (values.getD n 0) := clampValues_getD hlen n.isLt

theorem calibrationMoved_iff {values : List Int} (hlen : values.length = 35) :
    calibrationMoved values = true ↔ ∃ n : Fin 35, heldToRange n (values.getD n 0) ≠ values.getD n 0 := by
  simp only [calibrationMoved, bne_iff_ne, ne_iff_exists_getD_ne (clampValues_length hlen) hlen 0,
    clampValues_getD_eq_heldToRange hlen]

/-- The record holds the eight sensor offsets, 15 to 22, as integers and every other value as a natural, for which a
negative value becomes 0. -/
theorem calibrationOf_values (values : List Int) :
    (calibrationOf values).values =
      (List.range 35).map fun n => if 15 ≤ n ∧ n ≤ 22 then values.getD n 0 else max (values.getD n 0) 0 := by
  simp [calibrationOf, Calibration.values, List.range_succ]

theorem calibrationOf_values_getD {values : List Int} {n : Fin 35} (h : (15 ≤ n.val ∧ n.val ≤ 22) ∨ 0 ≤ values.getD n 0) :
    (calibrationOf values).values.getD n 0 = values.getD n 0 := by
  rw [calibrationOf_values]
  rcases h with h | h
  · simp [h]
  · simp only [List.getD] at h
    simp [h]

/-- Outside the sensor offsets, no range of R11 holds a negative value. -/
theorem calibrationRanges_nonneg :
    ∀ n : Fin 35, (15 ≤ n.val ∧ n.val ≤ 22) ∨ 0 ≤ (calibrationRanges.getD n (0, 0)).1 := by decide

/-- A load stores every value held to its range; the record's naturals lose nothing (R12). -/
theorem storedCalibration_values_getD {values : List Int} (hlen : values.length = 35) (n : Fin 35) :
    (storedCalibration values).values.getD n 0 = heldToRange n (values.getD n 0) := by
  rw [← clampValues_getD_eq_heldToRange hlen]
  refine calibrationOf_values_getD ((calibrationRanges_nonneg n).imp_right fun hlo => ?_)
  rw [clampValues_getD_eq_heldToRange hlen]
  exact hlo.trans (le_max_left _ _)

theorem loadCalibrationRecord_of_idle (values : List Int) {s : State} (h : s.rct.state = .idle) :
    loadCalibrationRecord values s =
      queueAnswer .calibration (answerOf (calibrationMoved values))
        (storeCalibration (storedCalibration values) { s with pli := { s.pli with statusStart := s.pot.timeCount } }) :=
  if_pos h

theorem loadCalibrationRecord_of_not_idle (values : List Int) {s : State} (h : s.rct.state ≠ .idle) :
    loadCalibrationRecord values s = queueAnswer .calibration .busy s := if_neg h

theorem exec_loadCalibration {values : List Int} {s : State} (hs : s.rct.state ≠ .loading) (hlen : values.length = 35)
    (hv : ∀ v ∈ values, -32768 ≤ v ∧ v ≤ 32767) :
    exec (.loadCalibration values) s = .next (arbitrate (loadCalibrationRecord values s)) :=
  congrArg Host.Outcome.next (takePlan_of_taken hs (loadCalibration_wellFormed hlen hv) _)

/-- Settles O18: the load is one case split on the run state, and what IDLE stores is `storedCalibration`. -/
theorem calibrationLoadIsWholeOrBusy : Obligations.CalibrationLoadIsWholeOrBusy := by
  intro values s hs hlen hv
  rw [exec_loadCalibration hs hlen hv]
  refine ⟨fun hidle => ?_, fun hbusy => by rw [loadCalibrationRecord_of_not_idle values hbusy]; rfl⟩
  have hstored := storedCalibration_values_getD hlen
  refine ⟨storedCalibration values, answerOf (calibrationMoved values), ?_, hstored, fun ⟨n, hne⟩ => ?_, fun hsame => ?_⟩
  · rw [loadCalibrationRecord_of_idle values hidle]
    rfl
  · exact answerOf_eq_clamped_iff.mpr ((calibrationMoved_iff hlen).mpr ⟨n, hstored n ▸ hne⟩)
  · refine answerOf_eq_accepted_iff.mpr (Bool.eq_false_iff.mpr fun h => ?_)
    obtain ⟨n, hne⟩ := (calibrationMoved_iff hlen).mp h
    exact hne (hstored n ▸ hsame n)

end Sys2Proof.Machine
end

section
/-! Set-Pose: when it is refused, and what an accepted one stores (R31, R32). -/

namespace Sys2Proof.Machine

/-! ## Refusal (R31) -/

theorem Slot.isMarked_iff {x : Slot} : x.isMarked = true ↔ ∃ t m, x = .marked t m := by
  cases x <;> simp [isMarked]

theorem Slot.isSent_iff {x : Slot} : x.isSent = true ↔ ∃ t m, x = .sent t m := by
  cases x <;> simp [isSent]

theorem TileWindow.holdsMarks_iff {w : TileWindow} :
    w.holdsMarks = true ↔ (∃ i t m, w.slot i = .marked t m) ∨ ∃ i t m, w.slot i = .sent t m := by
  simp [holdsMarks, mem_slotNumbers, Slot.isMarked_iff, Slot.isSent_iff, exists_or]

theorem setPoseRefused_iff {level : Nat} {s : State} :
    setPoseRefused level s = true ↔
      s.rct.state = .reflex ∨ s.rct.state = .approach ∨ (clampLevel level ≠ s.pot.pose.level ∧ s.twn.holdsMarks = true) := by
  simp [setPoseRefused, or_assoc]

theorem takeSetPose_of_refused {level : Nat} {s : State} (h : setPoseRefused level s = true) (x y heading : Nat) :
    takeSetPose level x y heading s = raise .commandRefused (.refused .setPose) s := if_pos h

theorem takeSetPose_of_not_refused {level : Nat} {s : State} (h : ¬setPoseRefused level s = true) (x y heading : Nat) :
    takeSetPose level x y heading s = acceptPose level x y heading s := if_neg h

/-! ## Acceptance (R32) -/

/-- The state an accepted Set-Pose leaves, before a POSE_EDGE (R32). -/
def poseStored (level x y heading : Nat) (s : State) : State :=
  emptyHistory
    (withPose { valid := true, level := clampLevel level, x := givenPosition x, y := givenPosition y,
                heading := clampHeading heading } (changeLevel (clampLevel level) s))

theorem acceptPose_eq (level x y heading : Nat) (s : State) :
    acceptPose level x y heading s =
      if positionMax < x * 16 ∨ positionMax < y * 16 then raise .poseEdge .edgeSetPose (poseStored level x y heading s)
      else poseStored level x y heading s := by
  simp [acceptPose, poseStored]

/-- A change of level empties the window and withdraws the waiting requests; the same level leaves both (R32, R57). -/
theorem changeLevel_eq (level : Nat) (s : State) :
    changeLevel level s = { s with
      twn := if level = s.pot.pose.level then s.twn
             else { slots := Vector.replicate 16 .empty, recency := [], unsolicited := s.twn.unsolicited }
      pli := if level = s.pot.pose.level then s.pli else { s.pli with requests := [] } } := by
  unfold changeLevel
  split <;> rfl

theorem poseStored_eq (level x y heading : Nat) (s : State) :
    poseStored level x y heading s = { s with
      pot := { s.pot with
        pose := { valid := true, level := clampLevel level, x := givenPosition x, y := givenPosition y,
                  heading := clampHeading heading }
        history := [] }
      twn := if clampLevel level = s.pot.pose.level then s.twn
             else { slots := Vector.replicate 16 .empty, recency := [], unsolicited := s.twn.unsolicited }
      pli := if clampLevel level = s.pot.pose.level then s.pli else { s.pli with requests := [] } } := by
  rw [poseStored, changeLevel_eq]
  rfl

theorem setPose_wellFormed {level x y heading : Nat} (hl : level ≤ 255) (hx : x ≤ 65535) (hy : y ≤ 65535)
    (hh : heading ≤ 65535) : (Instr.setPose level x y heading).wellFormed = true := by
  simp [Instr.wellFormed, fits8, fits16, hl, hx, hy, hh]

theorem exec_setPose {level x y heading : Nat} {s : State} (hs : s.rct.state ≠ .loading) (hl : level ≤ 255)
    (hx : x ≤ 65535) (hy : y ≤ 65535) (hh : heading ≤ 65535) :
    exec (.setPose level x y heading) s = .next (arbitrate (takeSetPose level x y heading s)) :=
  congrArg Host.Outcome.next (takePlan_of_taken hs (setPose_wellFormed hl hx hy hh) _)

/-- Settles O14: the refusal test decides between the two outcomes, and an accepted Set-Pose is `poseStored`, with a
POSE_EDGE when x or y was held. -/
theorem setPoseIsAcceptedOrRefused : Obligations.SetPoseIsAcceptedOrRefused := by
  intro level x y heading s hs hl hx hy hh newLevel held
  rw [exec_setPose hs hl hx hy hh]
  have hrefused : setPoseRefused level s = true ↔
      s.rct.state = .reflex ∨ s.rct.state = .approach ∨ (newLevel ≠ s.pot.pose.level ∧ held) :=
    setPoseRefused_iff.trans (by rw [TileWindow.holdsMarks_iff]; rfl)
  constructor
  · intro h
    rw [takeSetPose_of_refused (hrefused.mpr h)]
  · rintro ⟨hreflex, happroach, hlevel⟩
    have hnot : ¬setPoseRefused level s = true := by
      rw [hrefused, not_or, not_or, not_and_or, not_not]
      exact ⟨hreflex, happroach, hlevel⟩
    refine ⟨poseStored level x y heading s, poseStored_eq level x y heading s, ?_⟩
    rw [takeSetPose_of_not_refused hnot, acceptPose_eq]
    rfl

end Sys2Proof.Machine
end

section
/-! Tile Drop: what it does at each slot state, and at a key off the map (R55). -/

namespace Sys2Proof.Machine

/-! ## Where a key stands -/

theorem TileKey.onMap_iff {k : TileKey} : k.onMap = true ↔ ¬OffMap k := by
  simp [TileKey.onMap, OffMap, and_assoc]

/-- Under the law of the keys the search finds the one slot that holds a key (R38). -/
theorem WindowLaw.find_eq {s : State} (hlaw : WindowLaw s) {k : TileKey} {i : SlotNo}
    (hi : (s.twn.slot i).key? = some k) : s.twn.find k = some i := by
  cases hf : s.twn.find k with
  | none => exact absurd hi (TileWindow.find_eq_none.mp hf i)
  | some j => rw [hlaw.1 j i k (TileWindow.find_some hf) hi]

/-! ## Refusals (R68, R73) -/

theorem offerReport_eq (k : TileKey) (s : State) :
    offerReport k s = { s with mru := { s.mru with reportQueue := offered k s.mru.reportQueue } } := by
  by_cases h : s.mru.reportQueue.length < 4 ∧ k ∉ s.mru.reportQueue <;> simp [offerReport, offered, h]

theorem queueRetry_eq (f : RetryFrame) (s : State) :
    queueRetry f s = { s with pli := { s.pli with retries := retried f s.pli.retries } } := by
  by_cases h : ∃ r ∈ s.pli.retries, r.key = f.key ∧ r.reason = f.reason <;> simp [queueRetry, retried, h]

theorem refuseMarked_eq (x : RefusedFrame) (t : Tile) (s : State) :
    refuseMarked x t s = { s with
      mru := { s.mru with reportQueue := offered t.key s.mru.reportQueue }
      pli := { s.pli with
        retries := retried { key := t.key, reason := .marked, refused := x, generation := t.generation }
          s.pli.retries } } := by
  rw [refuseMarked, offerReport_eq, queueRetry_eq]

/-! ## The drop by the slot's state (R55) -/

section
variable {key : TileKey} {s : State} {i : SlotNo} {held : Tile} {m : Marks} {at_ : Time}

theorem dropTile_of_no_slot (hf : s.twn.find key = none) : dropTile key s = s := by
  simp only [dropTile, hf]

theorem dropTile_of_clean (hf : s.twn.find key = some i) (hs : s.twn.slot i = .clean held) :
    dropTile key s = { s with twn := s.twn.vacate i } := by
  simp only [dropTile, hf, hs]

theorem dropTile_of_sent (hf : s.twn.find key = some i) (hs : s.twn.slot i = .sent held m) :
    dropTile key s = { s with twn := s.twn.vacate i } := by
  simp only [dropTile, hf, hs]

theorem dropTile_of_marked (hf : s.twn.find key = some i) (hs : s.twn.slot i = .marked held m) :
    dropTile key s = refuseMarked .tileDrop held s := by
  simp only [dropTile, hf, hs]

theorem dropTile_of_pending (hf : s.twn.find key = some i) (hs : s.twn.slot i = .pending key at_) :
    dropTile key s = s := by
  simp only [dropTile, hf, hs]

end

/-! ## The frame -/

theorem tileDrop_wellFormed_iff {key : TileKey} : (Instr.tileDrop key).wellFormed = true ↔ ¬OffMap key :=
  TileKey.onMap_iff

theorem exec_tileDrop {key : TileKey} {s : State} (hs : s.rct.state ≠ .loading) (hkey : ¬OffMap key) :
    exec (.tileDrop key) s = .next (arbitrate (dropTile key s)) :=
  congrArg Host.Outcome.next (takePlan_of_taken hs (tileDrop_wellFormed_iff.mpr hkey) _)

/-- A drop of a key off the map is a bad frame in every state, LOADING too (R55, R169). -/
theorem exec_tileDrop_of_offMap {key : TileKey} (s : State) (hkey : OffMap key) :
    exec (.tileDrop key) s = .next (countPlanError s) := by
  refine congrArg Host.Outcome.next ?_
  rcases takePlan_cases (.tileDrop key) (dropTile key) s with ⟨-, h⟩ | ⟨-, hw, -⟩
  · exact h
  · exact absurd hkey (tileDrop_wellFormed_iff.mp hw)

/-- Settles O13: the law of the keys makes the search find the slot a clause names, and the drop acts by its state. -/
theorem tileDropActsBySlotState : Obligations.TileDropActsBySlotState := by
  intro key s hs hkey hlaw
  rw [exec_tileDrop hs hkey]
  have hfind : ∀ {i}, (s.twn.slot i).key? = some key → s.twn.find key = some i := hlaw.find_eq
  refine ⟨?emptied, ?refused, ?ignored, fun bad hbad => exec_tileDrop_of_offMap s hbad⟩
  case emptied =>
    rintro i (⟨held, hi, rfl⟩ | ⟨held, m, hi, rfl⟩)
    · rw [dropTile_of_clean (hfind (by rw [hi, Slot.key?])) hi]
      rfl
    · rw [dropTile_of_sent (hfind (by rw [hi, Slot.key?])) hi]
      rfl
  case refused =>
    rintro i held m hi rfl
    rw [dropTile_of_marked (hfind (by rw [hi, Slot.key?])) hi, refuseMarked_eq]
  case ignored =>
    rintro (⟨i, at_, hi⟩ | hnone)
    · rw [dropTile_of_pending (hfind (by rw [hi, Slot.key?])) hi]
    · rw [dropTile_of_no_slot (TileWindow.find_eq_none.mpr hnone)]

end Sys2Proof.Machine
end

section
/-! The Event Unit's masks and clears, and what the building of a STATUS frame clears (R172, R175). -/

namespace Sys2Proof.Machine

/-! ## Kinds and their records -/

theorem eventKinds_getElem_eventNumber (k : EventKind) : eventKinds[(eventNumber k).val]? = some k := by
  cases k <;> rfl

theorem mem_eventKinds (k : EventKind) : k ∈ eventKinds := List.mem_of_getElem? (eventKinds_getElem_eventNumber k)

@[simp] theorem eventNumber_inj {j k : EventKind} : eventNumber j = eventNumber k ↔ j = k := by
  refine ⟨fun h => Option.some.inj ?_, congrArg eventNumber⟩
  rw [← eventKinds_getElem_eventNumber j, h, eventKinds_getElem_eventNumber k]

@[simp] theorem EventUnit.record_withRecord (e : EventUnit) (j k : EventKind) (r : EventRecord) :
    (e.withRecord j r).record k = if k = j then r else e.record k := by
  simp [record, withRecord, Vector.getElem_set, Fin.val_inj, eq_comm]

/-! ## Masks and clears (R175) -/

theorem EventUnit.record_setMasks (e : EventUnit) (mode : ClearMode) (kinds : List EventKind) (k : EventKind) :
    (e.setMasks mode kinds).record k = { e.record k with masked := decide (k ∈ kinds) } := by
  have hlisted : (kinds.any fun j => eventNumber j == eventNumber k) = decide (k ∈ kinds) := by
    rw [Bool.eq_iff_iff]
    simp
  simp [record, setMasks, hlisted]

theorem EventUnit.record_clear (e : EventUnit) (j k : EventKind) :
    (e.clear j).record k = { e.record k with flag := (e.record k).flag && decide (k ≠ j) } := by
  by_cases h : k = j
  · simp [clear, h]
  · simp [clear, h]

theorem EventUnit.record_clearListed (kinds : List EventKind) (k : EventKind) (e : EventUnit) :
    (e.clearListed kinds).record k = { e.record k with flag := (e.record k).flag && decide (k ∉ kinds) } := by
  induction kinds generalizing e with
  | nil => simp [clearListed]
  | cons j kinds ih =>
    calc ((e.clear j).clearListed kinds).record k
        = { (e.clear j).record k with flag := ((e.clear j).record k).flag && decide (k ∉ kinds) } := ih (e.clear j)
      _ = { e.record k with flag := (e.record k).flag && decide (k ∉ j :: kinds) } := by
        simp [record_clear, Bool.and_assoc]

theorem EventUnit.clearListed_clearMode (kinds : List EventKind) (e : EventUnit) :
    (e.clearListed kinds).clearMode = e.clearMode := by
  induction kinds generalizing e with
  | nil => rfl
  | cons j kinds ih => exact ih (e.clear j)

theorem EventUnit.record_clearAll (e : EventUnit) (k : EventKind) :
    e.clearAll.record k = { e.record k with flag := false } := by
  simp [record, clearAll]

/-- The Event Unit after a STATUS frame is built: ON_STATUS clears every flag, EXPLICIT none (R175). -/
def EventUnit.afterStatus (e : EventUnit) : EventUnit := if e.clearMode = .onStatus then e.clearAll else e

theorem EventUnit.record_afterStatus (e : EventUnit) (k : EventKind) :
    e.afterStatus.record k = { e.record k with flag := (e.record k).flag && decide (e.clearMode = .explicit) } := by
  cases hmode : e.clearMode with
  | onStatus => simp [afterStatus, hmode, record_clearAll]
  | explicit => simp [afterStatus, hmode]

theorem EventUnit.afterStatus_clearMode (e : EventUnit) : e.afterStatus.clearMode = e.clearMode := by
  unfold afterStatus
  split <;> rfl

/-! ## The STATUS frame (R171, R172) -/

/-- A STATUS frame shows the set flags with their stored details. -/
theorem mem_statusOf_events {s : State} {k : EventKind} {d : Detail} : (k, d) ∈ (statusOf s).events ↔ Flagged s k d := by
  simp [statusOf, EventUnit.shown, Flagged, mem_eventKinds]

/-- A STATUS frame has its turn when no frame of another kind waits. -/
theorem chooseFrame_of_only_status {s : State} (hevents : s.pli.events = []) (hretries : s.pli.retries = [])
    (hanswers : s.pli.answers = []) (hrequests : s.pli.requests = []) (hreports : s.mru.reportQueue = [])
    (hstatus : s.pli.statusWaits = true) : chooseFrame s = sendStatus s := by
  simp only [chooseFrame, hevents, hretries, hanswers, hrequests, hreports, hstatus, if_true]

/-! ## The frames -/

theorem exec_eventMask {mode : ClearMode} {kinds : List EventKind} {s : State} (hs : s.rct.state ≠ .loading)
    (hlen : kinds.length ≤ 249) :
    exec (.eventMask mode kinds) s = .next (arbitrate { s with evu := s.evu.setMasks mode kinds }) :=
  congrArg Host.Outcome.next (takePlan_of_taken hs (by simpa [Instr.wellFormed] using hlen) _)

theorem exec_eventClear {kinds : List EventKind} {s : State} (hs : s.rct.state ≠ .loading) (hlen : kinds.length ≤ 250) :
    exec (.eventClear kinds) s = .next (arbitrate { s with evu := s.evu.clearListed kinds }) :=
  congrArg Host.Outcome.next (takePlan_of_taken hs (by simpa [Instr.wellFormed] using hlen) _)

theorem exec_planTransmitterFree_of_only_status {s : State} (hevents : s.pli.events = []) (hretries : s.pli.retries = [])
    (hanswers : s.pli.answers = []) (hrequests : s.pli.requests = []) (hreports : s.mru.reportQueue = [])
    (hstatus : s.pli.statusWaits = true) :
    exec .planTransmitterFree s = .next { s with
      evu := s.evu.afterStatus
      pli := { s.pli with statusWaits := false, leaving := some (.status (statusOf s)) } } :=
  congrArg Host.Outcome.next
    (chooseFrame_of_only_status (s := { s with pli := { s.pli with leaving := none } }) hevents hretries hanswers hrequests
      hreports hstatus)

/-- Settles O20: each of the three acts by one operation of the Event Unit, whose record lemma says what it changes. -/
theorem masksAndClearsActOnFlagsAlone : Obligations.MasksAndClearsActOnFlagsAlone := by
  refine ⟨fun mode kinds s hs hlen => ?mask, fun kinds s hs hlen => ?clear,
    fun s hevents hretries hanswers hrequests hreports hstatus => ?status⟩
  case mask => exact ⟨s.evu.setMasks mode kinds, exec_eventMask hs hlen, rfl, s.evu.record_setMasks mode kinds⟩
  case clear =>
    exact ⟨s.evu.clearListed kinds, exec_eventClear hs hlen, s.evu.clearListed_clearMode kinds,
      fun k => s.evu.record_clearListed kinds k⟩
  case status =>
    exact ⟨s.evu.afterStatus, statusOf s,
      exec_planTransmitterFree_of_only_status hevents hretries hanswers hrequests hreports hstatus,
      fun k d => mem_statusOf_events, s.evu.afterStatus_clearMode, s.evu.record_afterStatus⟩

end Sys2Proof.Machine
end

section
/-! The values that every step keeps in range: tables, pose, segments, mode commands, history and counts
(R6 to R14, R19, R26, R50, R66, R79, R80, R84, R108, R113, R166, R169), and that the reset state meets every law. -/

namespace Sys2Proof.Machine

/-! ## The reset state -/

theorem defaultResponse_inRange : ResponseInRange defaultResponse := ⟨by decide, by decide⟩

theorem defaultLearn_inRange : defaultLearn.InRange := by
  intro k
  cases k <;> decide

theorem reset_tableLaw : TableLaw State.reset where
  response := defaultResponse_inRange
  learn := defaultLearn_inRange
  braking := defaultBraking_inOrder
  cal := defaultCalibration_inRange
  dock := by unfold DockRecord.InRange; decide

theorem reset_poseLaw : PoseLaw State.reset := ⟨by unfold Pose.InRange; decide, reset_tableLaw.dock⟩

theorem reset_segmentLaw : SegmentLaw State.reset := ⟨by decide, List.forall_mem_nil _, nofun⟩

theorem reset_modeLaw : ModeLaw State.reset := ⟨by decide, List.forall_mem_nil _, by unfold Within; decide⟩

theorem reset_historyLaw : HistoryLaw State.reset := by unfold HistoryLaw; decide

theorem reset_countLaw : CountLaw State.reset := by constructor <;> decide

theorem slot_of_emptyWindow (i : SlotNo) : emptyWindow.slot i = .empty := slot_emptyWindow 0 i

theorem windowLaw_of_empty {s : State} (h : ∀ i, s.twn.slot i = .empty) : WindowLaw s := by
  constructor <;> intros <;> simp_all [Slot.key?]

theorem reset_windowLaw : WindowLaw State.reset := windowLaw_of_empty slot_of_emptyWindow

theorem reset_requestLaw : RequestLaw State.reset := ⟨by decide, by decide, by decide⟩

theorem reset_recencyLaw : RecencyLaw State.reset :=
  ⟨List.nodup_nil, fun i => by simp [State.reset, emptyWindow, TileWindow.slot, Slot.key?]⟩

theorem reset_marksLaw : MarksLaw State.reset := fun i => by
  rw [show State.reset.twn.slot i = .empty from slot_of_emptyWindow i]
  trivial

theorem reset_reportLaw : ReportLaw State.reset := ⟨by decide, by decide, List.forall_mem_nil _⟩

theorem reset_markedOrderLaw : MarkedOrderLaw State.reset :=
  ⟨List.nodup_nil, fun i => by simp [State.reset, emptyWindow, emptyMarkUnit, TileWindow.slot, Slot.isMarked]⟩

theorem reset_phaseLaw : PhaseLaw State.reset := by constructor <;> decide

theorem reset_dockLaw : DockLaw State.reset := by constructor <;> decide

theorem reset_brushLaw : BrushLaw State.reset := rfl

theorem reset_waitingLaw : WaitingLaw State.reset := ⟨by decide, by decide⟩

theorem reset_driveQueueLaw : DriveQueueLaw State.reset := fun _ => rfl

theorem reset_loadingLaw : LoadingLaw State.reset := fun _ => ⟨rfl, rfl⟩

/-- Settles O59, law by law. -/
theorem resetMeetsEveryLaw : Obligations.ResetMeetsEveryLaw :=
  ⟨reset_tableLaw, reset_poseLaw, reset_segmentLaw, reset_modeLaw, reset_historyLaw, reset_countLaw, reset_windowLaw,
    reset_requestLaw, reset_recencyLaw, reset_marksLaw, reset_reportLaw, reset_markedOrderLaw, reset_phaseLaw, reset_dockLaw,
    reset_brushLaw, reset_waitingLaw, reset_driveQueueLaw, reset_loadingLaw⟩

/-! ## The tables -/

theorem applyEntry_inRange {t : Vector ResponseRecord 16} (ht : ResponseInRange t) (e : ResponseEntry) :
    ResponseInRange (applyEntry t e) := by
  unfold applyEntry
  split
  · rename_i hlt
    refine ⟨?_, fun c => ?_⟩
    · rw [Vector.getElem_set_ne (h := by omega)]
      exact ht.1
    · simp only [Fin.getElem_fin, Vector.getElem_set]
      split
      · exact min_le_left _ _
      · exact ht.2 c
  · exact ht

theorem foldl_applyEntry_inRange (entries : List ResponseEntry) {t : Vector ResponseRecord 16} (ht : ResponseInRange t) :
    ResponseInRange (entries.foldl applyEntry t) := by
  induction entries generalizing t with
  | nil => exact ht
  | cons e rest ih => exact ih (applyEntry_inRange ht e)

theorem learnClass_ne_fifteen (n : Nat) : learnClass n ≠ some 15 := by
  unfold learnClass
  split
  · simp only [ne_eq, Option.some.injEq, Fin.ext_iff]
    exact fun h => absurd h (by show n ≠ 15; omega)
  · simp

theorem applyLearn_inRange {t : LearnTable} (ht : t.InRange) (e : LearnEntry) : (applyLearn t e).InRange := by
  intro k
  have hc := learnClass_ne_fifteen e.cls
  have hk := ht k
  unfold applyLearn
  split <;> cases k <;> assumption

theorem foldl_applyLearn_inRange (entries : List LearnEntry) {t : LearnTable} (ht : t.InRange) :
    (entries.foldl applyLearn t).InRange := by
  induction entries generalizing t with
  | nil => exact ht
  | cons e rest ih => exact ih (applyLearn_inRange ht e)

theorem dockRecord_inRange (level x y heading code : Nat) : (dockRecord level x y heading code).InRange := by
  simp only [DockRecord.InRange, dockRecord]
  omega

/-- The law of the tables reads the Table Store alone. -/
theorem TableLaw.of_tbs_eq {s t : State} (hs : TableLaw s) (h : t.tbs = s.tbs) : TableLaw t where
  response := h ▸ hs.response
  learn := h ▸ hs.learn
  braking := h ▸ hs.braking
  cal := h ▸ hs.cal
  dock := h ▸ hs.dock

theorem Change.keeps_tableLaw {s t : State} (h : Change s t) (hs : TableLaw s) : TableLaw t := by
  cases h with
  | response entries => exact { hs with response := foldl_applyEntry_inRange entries hs.response }
  | learn entries => exact { hs with learn := foldl_applyLearn_inRange entries hs.learn }
  | braking limits vclear hlen => exact { hs with braking := brakingTable_inOrder vclear hlen }
  | calibration c hc => exact { hs with cal := hc }
  | dockRecord level x y heading code => exact { hs with dock := dockRecord_inRange level x y heading code }
  | takeHead => exact hs.of_tbs_eq (takeHead_tbs s)
  | mark i tile r => exact hs.of_tbs_eq (recordMark_tbs i r s)
  | offer i tile m => exact hs.of_tbs_eq (offerReport_tbs tile.key s)
  | retry f => exact hs.of_tbs_eq (queueRetry_tbs f s)
  | lineError l => exact hs.of_tbs_eq (countLineError_tbs l s)
  | _ => exact hs.of_tbs_eq rfl

theorem Release.keeps_tableLaw {s t : State} (h : Release s t) (hs : TableLaw s) : TableLaw t := by
  cases h with
  | dropSent => exact hs.of_tbs_eq rfl
  | merge i old tile m => exact hs.of_tbs_eq (mergeTile_tbs i tile m s)
  | powerOn => exact reset_tableLaw.of_tbs_eq rfl
  | restart => exact hs.of_tbs_eq rfl

theorem step_keeps_tableLaw {s t : State} (h : step s = .next t) (hs : TableLaw s) : TableLaw t :=
  step_keeps (fun _ _ => Change.keeps_tableLaw) (fun _ _ => Release.keeps_tableLaw) (fun _ _ hu => hu.of_tbs_eq rfl)
    (fun _ _ _ hu => hu.of_tbs_eq rfl) h hs

/-! ## The pose -/

theorem Change.keeps_poseLaw {s t : State} (h : Change s t) (hs : PoseLaw s) : PoseLaw t := by
  obtain ⟨⟨hlevel, hx, hy, hheading⟩, hdock⟩ := hs
  have hs : PoseLaw s := ⟨⟨hlevel, hx, hy, hheading⟩, hdock⟩
  cases h with
  | dockRecord level x y heading code => exact ⟨hs.1, dockRecord_inRange level x y heading code⟩
  | heading n hn => exact ⟨⟨hlevel, hx, hy, hn⟩, hdock⟩
  | position x y hx' hy' => exact ⟨⟨hlevel, hx', hy', hheading⟩, hdock⟩
  | snap =>
    obtain ⟨-, hdx, hdy, hdh, -⟩ := hdock
    exact ⟨⟨hlevel, by show s.tbs.dock.x * 16 ≤ _; omega, by show s.tbs.dock.y * 16 ≤ _; omega, hdh⟩, hs.2⟩
  | level n hm hn => exact ⟨⟨hn.elim id fun e => e ▸ hdock.1, hx, hy, hheading⟩, hdock⟩
  | takeHead => rw [takeHead_only]; exact hs
  | mark i tile r => rw [recordMark_only]; exact hs
  | offer i tile m => rw [offerReport_only]; exact hs
  | retry f => rw [queueRetry_only]; exact hs
  | lineError l => cases l <;> exact hs
  | _ => exact hs

theorem Release.keeps_poseLaw {s t : State} (h : Release s t) (hs : PoseLaw s) : PoseLaw t := by
  cases h with
  | dropSent => exact hs
  | merge i old tile m => rw [mergeTile_only]; exact hs
  | powerOn => exact reset_poseLaw
  | restart => exact ⟨reset_poseLaw.1, hs.2⟩

theorem step_keeps_poseLaw {s t : State} (h : step s = .next t) (hs : PoseLaw s) : PoseLaw t :=
  step_keeps (fun _ _ => Change.keeps_poseLaw) (fun _ _ => Release.keeps_poseLaw) (fun _ _ hu => hu) (fun _ _ _ hu => hu) h hs

/-! ## The segments -/

theorem takeHead_keeps_segmentLaw {s : State} (hs : SegmentLaw s) : SegmentLaw (takeHead s) := by
  obtain ⟨hlen, hqueue, -⟩ := id hs
  unfold takeHead
  split
  · exact hs
  · rename_i g rest hq
    simp only [hq, List.length_cons, List.mem_cons, forall_eq_or_imp] at hlen hqueue
    exact ⟨by show rest.length ≤ 8; omega, hqueue.2, fun c hc => by cases hc; exact hqueue.1⟩

theorem segmentLaw_of_none {s : State} (hq : s.mgt.queue = []) (hc : s.mgt.current = none) : SegmentLaw s := by
  simp [SegmentLaw, hq, hc]

theorem Change.keeps_segmentLaw {s t : State} (h : Change s t) (hs : SegmentLaw s) : SegmentLaw t := by
  obtain ⟨hlen, hqueue, hcurrent⟩ := id hs
  cases h with
  | queueSegment g hg hlt =>
    refine ⟨by simpa using hlt, fun g' hg' => ?_, hcurrent⟩
    rcases List.mem_append.mp hg' with h' | h'
    · exact hqueue g' h'
    · exact List.mem_singleton.mp h' ▸ hg
  | takeHead => exact takeHead_keeps_segmentLaw hs
  | progress c c' hc hseg => exact ⟨hlen, hqueue, fun d hd => by cases hd; exact hseg ▸ hcurrent c hc⟩
  | complete starved => exact ⟨hlen, hqueue, nofun⟩
  | discard => exact segmentLaw_of_none rfl rfl
  | halt hz hr => exact segmentLaw_of_none rfl rfl
  | handOver hr => exact segmentLaw_of_none rfl rfl
  | mark i tile r => rw [recordMark_only]; exact hs
  | offer i tile m => rw [offerReport_only]; exact hs
  | retry f => rw [queueRetry_only]; exact hs
  | lineError l => cases l <;> exact hs
  | _ => exact hs

theorem Release.keeps_segmentLaw {s t : State} (h : Release s t) (hs : SegmentLaw s) : SegmentLaw t := by
  cases h with
  | dropSent => exact hs
  | merge i old tile m => rw [mergeTile_only]; exact hs
  | powerOn => exact reset_segmentLaw
  | restart => exact segmentLaw_of_none rfl rfl

theorem step_keeps_segmentLaw {s t : State} (h : step s = .next t) (hs : SegmentLaw s) : SegmentLaw t :=
  step_keeps (fun _ _ => Change.keeps_segmentLaw) (fun _ _ => Release.keeps_segmentLaw) (fun _ _ hu => hu)
    (fun _ _ _ hu => hu) h hs

/-! ## The mode commands -/

theorem modeCommand_factor {kind : ModeKind} {factor : Nat} (h : (modeCommand kind factor).kind = .creep) :
    Within 2 8 (modeCommand kind factor).factor := by
  cases kind <;> simp only [modeCommand, reduceCtorEq] at h ⊢
  unfold Within
  omega

theorem Change.keeps_modeLaw {s t : State} (h : Change s t) (hs : ModeLaw s) : ModeLaw t := by
  obtain ⟨hlen, hqueue, hcreep⟩ := id hs
  cases h with
  | creep c rest hq hk =>
    simp only [hq, List.length_cons, List.mem_cons, forall_eq_or_imp] at hlen hqueue
    have hc := hqueue.1 hk
    exact ⟨by show rest.length ≤ 3; omega, hqueue.2, ⟨by show 1 ≤ c.factor; have := hc.1; omega, hc.2⟩⟩
  | queueMode kind factor hlt =>
    refine ⟨by simpa using hlt, fun c hc => ?_, hcreep⟩
    rcases List.mem_append.mp hc with h' | h'
    · exact hqueue c h'
    · exact List.mem_singleton.mp h' ▸ modeCommand_factor
  | popMode =>
    exact ⟨by show s.rct.modeQueue.tail.length ≤ 3; simp; omega, fun c hc => hqueue c (List.mem_of_mem_tail hc), hcreep⟩
  | takeHead => rw [takeHead_only]; exact hs
  | mark i tile r => rw [recordMark_only]; exact hs
  | offer i tile m => rw [offerReport_only]; exact hs
  | retry f => rw [queueRetry_only]; exact hs
  | lineError l => cases l <;> exact hs
  | _ => exact hs

theorem Release.keeps_modeLaw {s t : State} (h : Release s t) (hs : ModeLaw s) : ModeLaw t := by
  cases h with
  | dropSent => exact hs
  | merge i old tile m => rw [mergeTile_only]; exact hs
  | powerOn => exact reset_modeLaw
  | restart => exact reset_modeLaw

theorem step_keeps_modeLaw {s t : State} (h : step s = .next t) (hs : ModeLaw s) : ModeLaw t :=
  step_keeps (fun _ _ => Change.keeps_modeLaw) (fun _ _ => Release.keeps_modeLaw) (fun _ _ hu => hu) (fun _ _ _ hu => hu) h hs

/-! ## The history ring -/

theorem appendEntry_length_le {ring : List HistoryEntry} (h : ring.length ≤ 32) (e : HistoryEntry) :
    (appendEntry ring e).length ≤ 32 := by
  unfold appendEntry
  split <;> simp <;> omega

theorem Change.keeps_historyLaw {s t : State} (h : Change s t) (hs : HistoryLaw s) : HistoryLaw t := by
  cases h with
  | appendHistory => exact appendEntry_length_le hs _
  | emptyHistory => exact reset_historyLaw
  | takeHead => rw [takeHead_only]; exact hs
  | mark i tile r => rw [recordMark_only]; exact hs
  | offer i tile m => rw [offerReport_only]; exact hs
  | retry f => rw [queueRetry_only]; exact hs
  | lineError l => cases l <;> exact hs
  | _ => exact hs

theorem Release.keeps_historyLaw {s t : State} (h : Release s t) (hs : HistoryLaw s) : HistoryLaw t := by
  cases h with
  | dropSent => exact hs
  | merge i old tile m => rw [mergeTile_only]; exact hs
  | powerOn => exact reset_historyLaw
  | restart => exact reset_historyLaw

theorem step_keeps_historyLaw {s t : State} (h : step s = .next t) (hs : HistoryLaw s) : HistoryLaw t :=
  step_keeps (fun _ _ => Change.keeps_historyLaw) (fun _ _ => Release.keeps_historyLaw) (fun _ _ hu => hu)
    (fun _ _ _ hu => hu) h hs

/-! ## The counts -/

theorem countUp_le (most n : Nat) : countUp most n ≤ most := min_le_left _ _

/-- An occurrence writes the waiting EVENT frames of the Plan Link alone (R174). -/
theorem raise_pli (k : EventKind) (d : Detail) (s : State) :
    (raise k d s).pli = { s.pli with events := (raise k d s).pli.events } := by
  simp only [raise]
  split <;> rfl

theorem recordMark_counts (i : SlotNo) (r : MarkRecord) (s : State) :
    (recordMark i r s).twn.unsolicited = s.twn.unsolicited ∧ (recordMark i r s).mru.dropped = s.mru.dropped := by
  unfold recordMark
  split
  · rw [becomeMarked, offerReport_eq]
    exact ⟨rfl, rfl⟩
  all_goals exact ⟨rfl, rfl⟩

theorem mergeTile_counts (i : SlotNo) (tile : Tile) (m : Marks) (s : State) :
    (mergeTile i tile m s).twn.unsolicited = s.twn.unsolicited ∧ (mergeTile i tile m s).mru.dropped = s.mru.dropped := by
  simp only [mergeTile]
  split
  · exact ⟨rfl, rfl⟩
  · rw [becomeMarked, offerReport_eq]
    exact ⟨rfl, rfl⟩

theorem takeHead_completed (s : State) : (takeHead s).mgt.completed = s.mgt.completed := by
  unfold takeHead
  split <;> rfl

theorem sendBrushCommand_errors (b : BrushState) (s : State) : (sendBrushCommand b s).dli.errors = s.dli.errors :=
  (sendDrive_dli _ _).2.2.1

theorem Change.keeps_countLaw {s t : State} (h : Change s t) (hs : CountLaw s) : CountLaw t := by
  cases h with
  | dropped => exact { hs with dropped := countUp_le 255 _ }
  | discardArrival => exact { hs with unsolicited := countUp_le 255 _ }
  | planError => exact { hs with plan := countUp_le 65535 _ }
  | lineError l =>
    cases l with
    | drive => exact { hs with drive := countUp_le 65535 _ }
    | sense => exact { hs with sense := countUp_le 65535 _ }
  | complete starved => exact { hs with completed := by show (s.mgt.completed + 1) % 65536 ≤ 65535; omega }
  | drive d hr hp he hw => exact { hs with drive := he ▸ hs.drive }
  | sense p hp => exact { hs with sense := hp ▸ hs.sense }
  | plan p he hr hq hn => exact { hs with plan := hn ▸ hs.plan }
  | raise k d => exact { hs with plan := by rw [raise_pli]; exact hs.plan }
  | retry f => rw [queueRetry_eq]; exact { hs with }
  | offer i tile m => rw [offerReport_eq]; exact { hs with }
  | mark i tile r =>
    obtain ⟨hunsolicited, hdropped⟩ := recordMark_counts i r s
    rw [recordMark_only]
    exact { hs with unsolicited := hunsolicited ▸ hs.unsolicited, dropped := hdropped ▸ hs.dropped }
  | takeHead => rw [takeHead_only]; exact { hs with completed := takeHead_completed s ▸ hs.completed }
  | command b => exact { hs with drive := sendBrushCommand_errors b s ▸ hs.drive }
  | _ => exact { hs with }

theorem Release.keeps_countLaw {s t : State} (h : Release s t) (hs : CountLaw s) : CountLaw t := by
  cases h with
  | dropSent => exact { hs with }
  | merge i old tile m =>
    obtain ⟨hunsolicited, hdropped⟩ := mergeTile_counts i tile m s
    rw [mergeTile_only]
    exact { hs with unsolicited := hunsolicited ▸ hs.unsolicited, dropped := hdropped ▸ hs.dropped }
  | powerOn => exact { reset_countLaw with }
  | restart => exact { reset_countLaw with }

theorem step_keeps_countLaw {s t : State} (h : step s = .next t) (hs : CountLaw s) : CountLaw t :=
  step_keeps (fun _ _ => Change.keeps_countLaw) (fun _ _ => Release.keeps_countLaw) (fun _ _ hu => { hu with })
    (fun _ _ _ hu => { hu with }) h hs

/-- Settles O54: each law is kept by every primitive change, and so by every step. -/
theorem stepKeepsValuesInRange : Obligations.StepKeepsValuesInRange := fun _ _ h =>
  ⟨step_keeps_tableLaw h, step_keeps_poseLaw h, step_keeps_segmentLaw h, step_keeps_modeLaw h, step_keeps_historyLaw h,
    step_keeps_countLaw h⟩

end Sys2Proof.Machine
end

section
/-! MARKED and SENT slots are given up only by the commands that release them (R37). -/

namespace Sys2Proof.Machine

/-- The slot is MARKED or SENT with a tile of the key and the generation. -/
def Slot.HoldsMarksOf (k : TileKey) (generation : Nat) (x : Slot) : Prop :=
  ∃ kept n, (x = .marked kept n ∨ x = .sent kept n) ∧ kept.key = k ∧ kept.generation = generation

theorem Slot.HoldsMarksOf.not_empty {k : TileKey} {g : Nat} : ¬Slot.HoldsMarksOf k g .empty := by
  simp [HoldsMarksOf]

theorem Slot.HoldsMarksOf.not_pending {k key : TileKey} {g : Nat} {at_ : Time} :
    ¬Slot.HoldsMarksOf k g (.pending key at_) := by simp [HoldsMarksOf]

theorem Slot.HoldsMarksOf.not_clean {k : TileKey} {g : Nat} {t : Tile} : ¬Slot.HoldsMarksOf k g (.clean t) := by
  simp [HoldsMarksOf]

@[simp] theorem Slot.holdsMarksOf_marked {k : TileKey} {g : Nat} {t : Tile} {m : Marks} :
    Slot.HoldsMarksOf k g (.marked t m) ↔ t.key = k ∧ t.generation = g := by simp [HoldsMarksOf]

@[simp] theorem Slot.holdsMarksOf_sent {k : TileKey} {g : Nat} {t : Tile} {m : Marks} :
    Slot.HoldsMarksOf k g (.sent t m) ↔ t.key = k ∧ t.generation = g := by simp [HoldsMarksOf]

/-- A slot keeps its marks while another slot's record is replaced, or its own by one that holds them. -/
theorem TileWindow.put_holdsMarksOf {w : TileWindow} {i j : SlotNo} {x : Slot} {k : TileKey} {g : Nat}
    (hi : (w.slot i).HoldsMarksOf k g) (hx : j = i → x.HoldsMarksOf k g) : ((w.put j x).slot i).HoldsMarksOf k g := by
  rw [slot_put]
  split
  · exact hx ‹_›
  · exact hi

section
variable {s t : State} {i : SlotNo} {k : TileKey} {g : Nat} (hi : (s.twn.slot i).HoldsMarksOf k g)
include hi

/-- Replacing the record of an EMPTY, PENDING or CLEAN slot leaves the marks of every slot. -/
theorem put_keeps_marks {j : SlotNo} (x : Slot)
    (hj : s.twn.slot j = .empty ∨ (∃ key at_, s.twn.slot j = .pending key at_) ∨ ∃ tile, s.twn.slot j = .clean tile) :
    ((s.twn.put j x).slot i).HoldsMarksOf k g := by
  refine TileWindow.put_holdsMarksOf hi fun hji => ?_
  subst hji
  rcases hj with h | ⟨_, _, h⟩ | ⟨_, h⟩ <;> rw [h] at hi
  · exact absurd hi Slot.HoldsMarksOf.not_empty
  · exact absurd hi Slot.HoldsMarksOf.not_pending
  · exact absurd hi Slot.HoldsMarksOf.not_clean

theorem recordMark_keeps_marks (j : SlotNo) (r : MarkRecord) : ((recordMark j r s).twn.slot i).HoldsMarksOf k g := by
  unfold recordMark
  split
  · rename_i tile hj
    rw [becomeMarked, offerReport_eq]
    exact put_keeps_marks hi _ (.inr (.inr ⟨tile, hj⟩))
  · rename_i tile m hj
    exact TileWindow.put_holdsMarksOf hi fun e => by rw [← e, hj] at hi; simpa [Tile.write] using hi
  · rename_i tile m hj
    exact TileWindow.put_holdsMarksOf hi fun e => by rw [← e, hj] at hi; simpa [Tile.write] using hi
  · exact hi
  · exact hi

theorem mergeTile_keeps_marks {j : SlotNo} (hj : j ≠ i) (tile : Tile) (m : Marks) :
    ((mergeTile j tile m s).twn.slot i).HoldsMarksOf k g := by
  simp only [mergeTile]
  split
  · exact TileWindow.put_holdsMarksOf (w := s.twn.touch j) hi fun e => absurd e hj
  · rw [becomeMarked, offerReport_eq]
    exact TileWindow.put_holdsMarksOf (w := s.twn.touch j) hi fun e => absurd e hj

theorem Change.keeps_marks (h : Change s t) : (t.twn.slot i).HoldsMarksOf k g := by
  cases h with
  | level n hm hn =>
    obtain ⟨tile, m, hs, -⟩ := hi
    have hnone := TileWindow.holdsMarks_eq_false.mp hm i
    rcases hs with hs | hs <;> simp [hs, Slot.isMarked, Slot.isSent] at hnone
  | openRequest j key hf hp hl hj =>
    exact put_keeps_marks hi _ ((TileWindow.slotToTake_some hj).imp id .inr)
  | mark j tile r => exact recordMark_keeps_marks hi j r
  | expire j key at_ hj => exact put_keeps_marks hi _ (.inr (.inl ⟨key, at_, hj⟩))
  | answer j key at_ tile hj => exact put_keeps_marks hi _ (.inr (.inl ⟨key, at_, hj⟩))
  | replace j old tile hj => exact put_keeps_marks hi _ (.inr (.inr ⟨old, hj⟩))
  | unsolicited j tile hj => exact put_keeps_marks hi _ (.inl (TileWindow.lowestEmpty_some hj))
  | dropClean j tile hj => exact put_keeps_marks hi _ (.inr (.inr ⟨tile, hj⟩))
  | report j tile m rest hq hf hj =>
    exact TileWindow.put_holdsMarksOf hi fun e => by rw [← e, hj] at hi; simpa using hi
  | takeHead => rw [takeHead_only]; exact hi
  | offer j tile m => rw [offerReport_only]; exact hi
  | retry f => rw [queueRetry_only]; exact hi
  | lineError l => cases l <;> exact hi
  | _ => exact hi

theorem Changes.keeps_marks (h : Changes s t) : (t.twn.slot i).HoldsMarksOf k g :=
  h.keeps (P := fun u => (u.twn.slot i).HoldsMarksOf k g) (fun _ _ hc hu => hc.keeps_marks hu) hi

/-- A Plan Link frame keeps the marks of a slot when its taking does. -/
theorem takePlan_keeps_marks {c : Instr} {act : State → State} (hact : ((act s).twn.slot i).HoldsMarksOf k g) :
    ((takePlan c act s).twn.slot i).HoldsMarksOf k g := by
  rcases takePlan_cases c act s with ⟨-, e⟩ | ⟨-, -, e⟩ <;> rw [e]
  · exact hi
  · exact (arbitrate_changes _).keeps_marks hact

/-- A tile takes no marks but a SENT slot's of its key with another generation (R51 to R53). -/
theorem takeTile_keeps_marks {tile : Tile}
    (hsent : ∀ held m, s.twn.slot i = .sent held m → tile.key = held.key → tile.generation = held.generation) :
    ((takeTile tile s).twn.slot i).HoldsMarksOf k g := by
  unfold takeTile
  split
  · split
    · rename_i j hj
      have hkey := TileWindow.find_some hj
      unfold takeAtSlot
      split <;> rename_i hslot <;> rw [hslot] at hkey
      · exact hi
      · exact put_keeps_marks hi _ (.inr (.inl ⟨_, _, hslot⟩))
      · exact put_keeps_marks hi _ (.inr (.inr ⟨_, hslot⟩))
      · exact (refuseMarked_changes .tile hslot).keeps_marks hi
      · rename_i held m
        split
        · exact (refuseStale_changes held s).keeps_marks hi
        · rename_i hgeneration
          refine mergeTile_keeps_marks hi (fun hji => hgeneration ?_) tile m
          exact hsent held m (hji ▸ hslot) (Option.some.inj hkey).symm
    · unfold takeUnsolicited
      split
      · exact put_keeps_marks hi _ (.inl (TileWindow.lowestEmpty_some ‹_›))
      · exact hi
  · exact hi

/-- A Tile Drop takes no marks but a SENT slot's of its key (R55). -/
theorem dropTile_keeps_marks {key : TileKey} (hsent : ∀ held m, s.twn.slot i = .sent held m → held.key ≠ key) :
    ((dropTile key s).twn.slot i).HoldsMarksOf k g := by
  unfold dropTile
  split
  · exact hi
  · rename_i j hj
    have hkey := TileWindow.find_some hj
    split <;> rename_i hslot <;> rw [hslot] at hkey
    · exact put_keeps_marks hi _ (.inr (.inr ⟨_, hslot⟩))
    · refine TileWindow.put_holdsMarksOf hi fun hji => ?_
      exact absurd (Option.some.inj hkey) (hsent _ _ (hji ▸ hslot))
    · exact (refuseMarked_changes .tileDrop hslot).keeps_marks hi
    · exact hi
    · exact hi

end

/-- Settles O58: a command that is no release is a chain of changes that keep the marks, and a TILE or a TILE_DROP takes
those of a SENT slot of its key alone. -/
theorem markedTilesAreKept : Obligations.MarkedTilesAreKept := by
  intro i held m s t hstep hpower hrestart hslot
  have hi : (s.twn.slot i).HoldsMarksOf held.key held.generation :=
    ⟨held, m, hslot.imp id fun h => h.1, rfl, rfl⟩
  have hsent : ∀ held' m', s.twn.slot i = .sent held' m' → held' = held ∧
      (∀ rest, s.pending ≠ .tileDrop held.key :: rest) ∧
      ∀ generation contents rest, generation ≠ held.generation → s.pending ≠ .tile held.key generation contents :: rest := by
    intro held' m' h
    rcases hslot with h' | ⟨h', hdrop, htile⟩ <;> rw [h'] at h <;> cases h
    exact ⟨rfl, hdrop, htile⟩
  show (t.twn.slot i).HoldsMarksOf held.key held.generation
  unfold step at hstep
  split at hstep
  · cases hstep
    exact hi
  · rename_i c rest hpending
    have hi : (({ s with pending := rest } : State).twn.slot i).HoldsMarksOf held.key held.generation := hi
    by_cases hrel : releases c = false
    · exact (exec_changes hrel hstep).keeps_marks hi
    cases c <;> simp only [releases, not_true] at hrel
    case powerOn => exact absurd hpending (hpower rest)
    case restart => exact absurd hpending (hrestart rest)
    case tile key generation contents =>
      cases hstep
      refine takePlan_keeps_marks hi (takeTile_keeps_marks hi fun held' m' h hkey => ?_)
      obtain ⟨rfl, -, htile⟩ := hsent held' m' h
      cases hkey
      exact by_contra fun hne => htile generation contents rest hne hpending
    case tileDrop key =>
      cases hstep
      refine takePlan_keeps_marks hi (dropTile_keeps_marks hi fun held' m' h hkey => ?_)
      obtain ⟨rfl, hdrop, -⟩ := hsent held' m' h
      exact hdrop rest (hkey ▸ hpending)

end Sys2Proof.Machine
end

section
/-! The laws of the tile window that every step keeps: the keys, the requests and the recency order (R38, R39, R43, R45). -/

namespace Sys2Proof.Machine

/-! ## The laws, of a window alone -/

/-- The law of the keys, of a window at a level (R38). -/
def TileWindow.KeysOn (level : Nat) (w : TileWindow) : Prop :=
  (∀ i j : SlotNo, ∀ k, (w.slot i).key? = some k → (w.slot j).key? = some k → i = j) ∧
    ∀ i : SlotNo, ∀ k, (w.slot i).key? = some k → k.level = level

/-- The law of the recency order, of a window (R39). -/
def TileWindow.InRecency (w : TileWindow) : Prop :=
  w.recency.Nodup ∧ ∀ i : SlotNo, i ∈ w.recency ↔ (w.slot i).key?.isSome

/-- The law of the requests, of a window and the TILE_REQUEST frames that wait (R43, R45). -/
def TileWindow.RequestsIn (w : TileWindow) (requests : List TileKey) : Prop :=
  w.pendingRequests ≤ 6 ∧ requests.Nodup ∧ ∀ k ∈ requests, ∃ i : SlotNo, ∃ at_, w.slot i = .pending k at_

theorem windowLaw_iff {s : State} : WindowLaw s ↔ s.twn.KeysOn s.pot.pose.level := Iff.rfl

theorem recencyLaw_iff {s : State} : RecencyLaw s ↔ s.twn.InRecency := Iff.rfl

theorem requestLaw_iff {s : State} : RequestLaw s ↔ s.twn.RequestsIn s.pli.requests := Iff.rfl

section
variable {w v : TileWindow} {i j : SlotNo} {x : Slot} {k : TileKey} {level : Nat} {requests : List TileKey}

/-! ## One slot's record replaced -/

theorem Slot.isPending_of_tile {t : Tile} (h : x.tile? = some t) : x.isPending = false := by
  cases x <;> simp_all [tile?, isPending]

theorem Slot.isPending_eq_false_iff : x.isPending = false ↔ ∀ k at_, x ≠ .pending k at_ := by
  cases x <;> simp [isPending]

theorem TileWindow.key_put (h : x.key? = (w.slot i).key?) : ((w.put i x).slot j).key? = (w.slot j).key? := by
  rw [slot_put]
  split
  · rename_i hij
    rw [h, hij]
  · rfl

theorem TileWindow.KeysOn.of_keys (h : w.KeysOn level) (he : ∀ j, (v.slot j).key? = (w.slot j).key?) : v.KeysOn level := by
  simpa only [KeysOn, he] using h

theorem TileWindow.InRecency.of_keys (h : w.InRecency) (hr : v.recency = w.recency)
    (he : ∀ j, (v.slot j).key? = (w.slot j).key?) : v.InRecency := by
  simpa only [InRecency, he, hr] using h

/-- A record for a key that no other slot holds keeps the law of the keys. -/
theorem TileWindow.KeysOn.put (h : w.KeysOn level)
    (hx : ∀ k, x.key? = some k → k.level = level ∧ ∀ j, (w.slot j).key? = some k → j = i) : (w.put i x).KeysOn level := by
  refine ⟨fun a b k ha hb => ?_, fun a k ha => ?_⟩
  · rw [slot_put] at ha hb
    split at ha <;> split at hb
    · exact (‹i = a› : i = a) ▸ (‹i = b› : i = b)
    · rw [← ‹i = a›, (hx k ha).2 b hb]
    · rw [← ‹i = b›, (hx k hb).2 a ha]
    · exact h.1 a b k ha hb
  · rw [slot_put] at ha
    split at ha
    · exact (hx k ha).1
    · exact h.2 a k ha

theorem TileWindow.KeysOn.vacate (h : w.KeysOn level) (i : SlotNo) : (w.vacate i).KeysOn level :=
  KeysOn.of_keys (h.put (i := i) (x := .empty) nofun) fun _ => rfl

theorem TileWindow.KeysOn.occupy (h : w.KeysOn level) (hx : x.key? = some k) (hl : k.level = level)
    (hfree : ∀ j, (w.slot j).key? = some k → j = i) : (w.occupy i x).KeysOn level := by
  refine KeysOn.of_keys (h.put (i := i) (x := x) fun k' hk' => ?_) fun _ => rfl
  cases hx.symm.trans hk'
  exact ⟨hl, hfree⟩

/-! ## The recency order -/

theorem TileWindow.InRecency.touch (h : w.InRecency) (hi : (w.slot i).key?.isSome) : (w.touch i).InRecency := by
  refine ⟨?_, fun j => ?_⟩
  · simpa [TileWindow.touch, List.nodup_append] using ⟨h.1.erase i, fun a ha => ((h.1.mem_erase_iff).mp ha).1⟩
  · rw [slot_touch, ← h.2 j]
    by_cases hji : j = i
    · subst hji
      simpa [TileWindow.touch] using (h.2 j).mpr hi
    · simp [TileWindow.touch, hji, h.1.mem_erase_iff]

/-- A slot that takes a record is entered as most-recent (R39). -/
theorem TileWindow.InRecency.occupy (h : w.InRecency) (hx : x.key?.isSome) : (w.occupy i x).InRecency := by
  refine ⟨?_, fun j => ?_⟩
  · simpa [TileWindow.occupy, TileWindow.touch, put, List.nodup_append] using
      ⟨h.1.erase i, fun a ha => ((h.1.mem_erase_iff).mp ha).1⟩
  · rw [slot_occupy]
    split
    · rename_i hij
      simpa [TileWindow.occupy, TileWindow.touch, hij] using hx
    · rename_i hij
      simp [TileWindow.occupy, TileWindow.touch, put, h.1.mem_erase_iff, Ne.symm hij, h.2 j]

theorem TileWindow.InRecency.vacate (h : w.InRecency) (i : SlotNo) : (w.vacate i).InRecency := by
  refine ⟨h.1.erase i, fun j => ?_⟩
  rw [slot_vacate]
  split
  · rename_i hij
    simp [TileWindow.vacate, ← hij, h.1.mem_erase_iff, Slot.key?]
  · rename_i hij
    simp [TileWindow.vacate, h.1.mem_erase_iff, Ne.symm hij, h.2 j]

/-! ## The requests -/

/-- Two predicates that agree off one element count a list without repeats to within one. -/
theorem countP_le_succ_of_eq_off {α : Type} {l : List α} {f g : α → Bool} {a : α} (hl : l.Nodup)
    (h : ∀ b, b ≠ a → f b = g b) : l.countP f ≤ l.countP g + 1 := by
  induction l with
  | nil => simp
  | cons b l ih =>
    obtain ⟨hb, hl⟩ := List.nodup_cons.mp hl
    by_cases hba : b = a
    · have he : l.countP f = l.countP g := List.countP_congr fun c hc => by rw [h c fun e => hb (hba ▸ e ▸ hc)]
      simp only [List.countP_cons, he]
      split <;> split <;> omega
    · have := ih hl
      simp only [List.countP_cons, h b hba]
      omega

theorem TileWindow.pendingRequests_put_le (w : TileWindow) (i : SlotNo) (x : Slot) :
    (w.put i x).pendingRequests ≤ w.pendingRequests + 1 :=
  countP_le_succ_of_eq_off (f := fun j => ((w.put i x).slot j).isPending) (g := fun j => (w.slot j).isPending) (a := i)
    slotNumbers_nodup fun j hj => by simp only [slot_put_of_ne w x (Ne.symm hj)]

theorem TileWindow.pendingRequests_put_of_not_pending (hx : x.isPending = false) :
    (w.put i x).pendingRequests ≤ w.pendingRequests := by
  refine List.countP_mono_left (p := fun j => ((w.put i x).slot j).isPending) (q := fun j => (w.slot j).isPending)
    fun j _ hj => ?_
  simp only [slot_put] at hj
  split at hj
  · rw [hx] at hj
    cases hj
  · exact hj

theorem TileWindow.RequestsIn.of_sublist {sub : List TileKey} (h : w.RequestsIn requests) (hs : sub.Sublist requests) :
    w.RequestsIn sub := ⟨h.1, h.2.1.sublist hs, fun k hk => h.2.2 k (hs.subset hk)⟩

/-- A record that is not PENDING, in a slot that is not, leaves the requests. -/
theorem TileWindow.RequestsIn.put (h : w.RequestsIn requests) (hold : (w.slot i).isPending = false)
    (hx : x.isPending = false) : (w.put i x).RequestsIn requests := by
  refine ⟨(pendingRequests_put_of_not_pending hx).trans h.1, h.2.1, fun k hk => ?_⟩
  obtain ⟨j, at_, hj⟩ := h.2.2 k hk
  refine ⟨j, at_, ?_⟩
  rw [slot_put_of_ne w x fun e => ?_, hj]
  exact Slot.isPending_eq_false_iff.mp hold k at_ (e ▸ hj)

/-- A PENDING slot that gives up its request takes the waiting frames for its key along (R45, R48, R51). -/
theorem TileWindow.RequestsIn.close {at_ : Time} (h : w.RequestsIn requests) (hold : w.slot i = .pending k at_)
    (hx : x.isPending = false) : (w.put i x).RequestsIn (requests.filter fun r => r != k) := by
  refine ⟨(pendingRequests_put_of_not_pending hx).trans h.1, h.2.1.filter _, fun k' hk' => ?_⟩
  simp only [List.mem_filter, bne_iff_ne] at hk'
  obtain ⟨j, at', hj⟩ := h.2.2 k' hk'.1
  refine ⟨j, at', ?_⟩
  rw [slot_put_of_ne w x fun e => ?_, hj]
  rw [← e, hold] at hj
  cases hj
  exact hk'.2 rfl

/-- A slot that becomes PENDING for a key that no slot held has one frame waiting (R43, R45). -/
theorem TileWindow.RequestsIn.open {at_ : Time} (h : w.RequestsIn requests) (hold : (w.slot i).isPending = false)
    (hp : w.pendingRequests < 6) (hf : w.find k = none) : (w.put i (.pending k at_)).RequestsIn (requests ++ [k]) := by
  have hk : k ∉ requests := fun hk => by
    obtain ⟨j, at', hj⟩ := h.2.2 k hk
    exact find_eq_none.mp hf j (by rw [hj, Slot.key?])
  refine ⟨(pendingRequests_put_le w i _).trans hp, ?_, fun k' hk' => ?_⟩
  · simpa [List.nodup_append] using ⟨h.2.1, fun a ha e => hk (e ▸ ha)⟩
  · rcases List.mem_append.mp hk' with hk' | hk'
    · obtain ⟨j, at', hj⟩ := h.2.2 k' hk'
      refine ⟨j, at', ?_⟩
      rw [slot_put_of_ne w _ fun e => ?_, hj]
      exact Slot.isPending_eq_false_iff.mp hold k' at' (e ▸ hj)
    · rw [List.mem_singleton.mp hk']
      exact ⟨i, at_, slot_put_self w i _⟩

end

/-! ## The slot that a mark or a merged tile writes -/

theorem recordMark_twn {i : SlotNo} {t : Tile} {s : State} (r : MarkRecord) (h : (s.twn.slot i).tile? = some t) :
    ∃ x : Slot, x.tile? = some (t.write r.cell r.cls) ∧ (recordMark i r s).twn = s.twn.put i x := by
  unfold recordMark
  split <;> rename_i hs <;> rw [hs] at h <;> cases h
  · rw [becomeMarked, offerReport_eq]
    exact ⟨_, rfl, rfl⟩
  · exact ⟨_, rfl, rfl⟩
  · exact ⟨_, rfl, rfl⟩

theorem mergeTile_twn (i : SlotNo) (t : Tile) (m : Marks) (s : State) :
    ∃ (x : Slot) (u : Tile), x.tile? = some u ∧ u.key = t.key ∧ (mergeTile i t m s).twn = (s.twn.touch i).put i x := by
  simp only [mergeTile]
  split
  · exact ⟨_, t, rfl, rfl, rfl⟩
  · rw [becomeMarked, offerReport_eq]
    exact ⟨.marked _ _, { t with cells := (reapply s.tbs.response m.records t.cells).2 }, rfl, rfl, rfl⟩

theorem slotToTake_not_pending {w : TileWindow} {p : Pose} {i : SlotNo} (h : w.slotToTake p = some i) :
    (w.slot i).isPending = false := by
  rcases TileWindow.slotToTake_some h with h | ⟨t, h⟩ <;> rw [h] <;> rfl

/-! ## The law of the keys -/

theorem Change.keeps_windowLaw {s t : State} (h : Change s t) (hs : WindowLaw s) : WindowLaw t := by
  cases h with
  | level n hm hn => exact windowLaw_of_empty fun i => slot_emptyWindow _ i
  | openRequest i k hf hp hl hi =>
    exact TileWindow.KeysOn.occupy hs rfl hl fun j hj => absurd hj (TileWindow.find_eq_none.mp hf j)
  | mark i tile r hi =>
    obtain ⟨x, hx, htwn⟩ := recordMark_twn r hi
    rw [windowLaw_iff, htwn, recordMark_only]
    exact TileWindow.KeysOn.of_keys hs fun j => TileWindow.key_put (by rw [Slot.key_of_tile hx, Slot.key_of_tile hi]; rfl)
  | expire i k at_ hi => exact TileWindow.KeysOn.vacate hs i
  | answer i k at_ tile hi hk =>
    have hkey : (s.twn.slot i).key? = some tile.key := by rw [hi, hk]; rfl
    exact TileWindow.KeysOn.occupy hs rfl (hs.2 i _ hkey) fun j hj => hs.1 j i _ hj hkey
  | replace i old tile hi hk =>
    have hkey : (s.twn.slot i).key? = some tile.key := by rw [hi, hk]; rfl
    exact TileWindow.KeysOn.occupy hs rfl (hs.2 i _ hkey) fun j hj => hs.1 j i _ hj hkey
  | unsolicited i tile hi hf hl =>
    exact TileWindow.KeysOn.occupy hs rfl hl fun j hj => absurd hj (TileWindow.find_eq_none.mp hf j)
  | dropClean i tile hi => exact TileWindow.KeysOn.vacate hs i
  | report i tile m rest hq hf hi =>
    exact TileWindow.KeysOn.of_keys hs fun j => TileWindow.key_put (by rw [hi]; rfl)
  | takeHead => rw [takeHead_only]; exact hs
  | offer i tile m => rw [offerReport_only]; exact hs
  | retry f => rw [queueRetry_only]; exact hs
  | lineError l => cases l <;> exact hs
  | _ => exact hs

theorem Release.keeps_windowLaw {s t : State} (h : Release s t) (hs : WindowLaw s) : WindowLaw t := by
  cases h with
  | dropSent i tile m hi => exact TileWindow.KeysOn.vacate hs i
  | merge i old tile m hi hk =>
    obtain ⟨x, u, hx, hu, htwn⟩ := mergeTile_twn i tile m s
    rw [windowLaw_iff, htwn, mergeTile_only]
    exact TileWindow.KeysOn.of_keys hs fun j => TileWindow.key_put (w := s.twn.touch i)
      (by rw [Slot.key_of_tile hx, TileWindow.slot_touch, hi, hu, hk]; rfl)
  | powerOn => exact reset_windowLaw
  | restart => exact reset_windowLaw

theorem step_keeps_windowLaw {s t : State} (h : step s = .next t) (hs : WindowLaw s) : WindowLaw t :=
  step_keeps (fun _ _ => Change.keeps_windowLaw) (fun _ _ => Release.keeps_windowLaw) (fun _ _ hu => hu)
    (fun _ _ _ hu => hu) h hs

/-! ## The law of the recency order -/

theorem Change.keeps_recencyLaw {s t : State} (h : Change s t) (hs : RecencyLaw s) : RecencyLaw t := by
  cases h with
  | level n hm hn => exact ⟨List.nodup_nil, fun i => by simp [withPose, levelChange, emptyWindow, TileWindow.slot, Slot.key?]⟩
  | openRequest i k hf hp hl hi => exact TileWindow.InRecency.occupy hs rfl
  | touch i tile hi => exact TileWindow.InRecency.touch hs (by rw [Slot.key_of_tile hi]; rfl)
  | mark i tile r hi =>
    obtain ⟨x, hx, htwn⟩ := recordMark_twn r hi
    rw [recencyLaw_iff, htwn]
    exact TileWindow.InRecency.of_keys hs rfl fun j => TileWindow.key_put (by rw [Slot.key_of_tile hx, Slot.key_of_tile hi]; rfl)
  | expire i k at_ hi => exact TileWindow.InRecency.vacate hs i
  | answer i k at_ tile hi hk => exact TileWindow.InRecency.occupy hs rfl
  | replace i old tile hi hk => exact TileWindow.InRecency.occupy hs rfl
  | unsolicited i tile hi hf hl => exact TileWindow.InRecency.occupy hs rfl
  | dropClean i tile hi => exact TileWindow.InRecency.vacate hs i
  | report i tile m rest hq hf hi =>
    exact TileWindow.InRecency.of_keys hs rfl fun j => TileWindow.key_put (by rw [hi]; rfl)
  | takeHead => rw [takeHead_only]; exact hs
  | offer i tile m => rw [offerReport_only]; exact hs
  | retry f => rw [queueRetry_only]; exact hs
  | lineError l => cases l <;> exact hs
  | _ => exact hs

theorem Release.keeps_recencyLaw {s t : State} (h : Release s t) (hs : RecencyLaw s) : RecencyLaw t := by
  cases h with
  | dropSent i tile m hi => exact TileWindow.InRecency.vacate hs i
  | merge i old tile m hi hk =>
    obtain ⟨x, u, hx, hu, htwn⟩ := mergeTile_twn i tile m s
    rw [recencyLaw_iff, htwn]
    refine TileWindow.InRecency.of_keys (TileWindow.InRecency.touch hs (i := i) (by rw [hi]; rfl)) rfl fun j =>
      TileWindow.key_put ?_
    rw [Slot.key_of_tile hx, TileWindow.slot_touch, hi, hu, hk]
    rfl
  | powerOn => exact reset_recencyLaw
  | restart => exact reset_recencyLaw

theorem step_keeps_recencyLaw {s t : State} (h : step s = .next t) (hs : RecencyLaw s) : RecencyLaw t :=
  step_keeps (fun _ _ => Change.keeps_recencyLaw) (fun _ _ => Release.keeps_recencyLaw) (fun _ _ hu => hu)
    (fun _ _ _ hu => hu) h hs

/-! ## The law of the requests -/

theorem Change.keeps_requestLaw {s t : State} (h : Change s t) (hs : RequestLaw s) : RequestLaw t := by
  cases h with
  | level n hm hn => exact ⟨le_of_eq_of_le (b := 0) rfl (by decide), List.nodup_nil, List.forall_mem_nil _⟩
  | openRequest i k hf hp hl hi => exact TileWindow.RequestsIn.open hs (slotToTake_not_pending hi) hp hf
  | mark i tile r hi =>
    obtain ⟨x, hx, htwn⟩ := recordMark_twn r hi
    rw [requestLaw_iff, htwn, recordMark_only]
    exact TileWindow.RequestsIn.put hs (Slot.isPending_of_tile hi) (Slot.isPending_of_tile hx)
  | expire i k at_ hi => exact TileWindow.RequestsIn.close hs hi rfl
  | answer i k at_ tile hi hk => exact TileWindow.RequestsIn.close hs hi rfl
  | replace i old tile hi hk => exact TileWindow.RequestsIn.put hs (by rw [hi]; rfl) rfl
  | unsolicited i tile hi hf hl =>
    exact TileWindow.RequestsIn.put hs (by rw [TileWindow.lowestEmpty_some hi]; rfl) rfl
  | dropClean i tile hi => exact TileWindow.RequestsIn.put hs (by rw [hi]; rfl) rfl
  | report i tile m rest hq hf hi => exact TileWindow.RequestsIn.put hs (by rw [hi]; rfl) rfl
  | plan p he hr hq hn => exact TileWindow.RequestsIn.of_sublist hs hq
  | raise k d => rw [requestLaw_iff, raise_pli]; exact hs
  | takeHead => rw [takeHead_only]; exact hs
  | offer i tile m => rw [offerReport_only]; exact hs
  | retry f => rw [queueRetry_eq]; exact hs
  | lineError l => cases l <;> exact hs
  | _ => exact hs

theorem Release.keeps_requestLaw {s t : State} (h : Release s t) (hs : RequestLaw s) : RequestLaw t := by
  cases h with
  | dropSent i tile m hi => exact TileWindow.RequestsIn.put hs (by rw [hi]; rfl) rfl
  | merge i old tile m hi hk =>
    obtain ⟨x, u, hx, hu, htwn⟩ := mergeTile_twn i tile m s
    rw [requestLaw_iff, htwn, mergeTile_only]
    exact TileWindow.RequestsIn.put (w := s.twn.touch i) hs (by rw [TileWindow.slot_touch, hi]; rfl) (Slot.isPending_of_tile hx)
  | powerOn => exact reset_requestLaw
  | restart => exact reset_requestLaw

theorem step_keeps_requestLaw {s t : State} (h : step s = .next t) (hs : RequestLaw s) : RequestLaw t :=
  step_keeps (fun _ _ => Change.keeps_requestLaw) (fun _ _ => Release.keeps_requestLaw) (fun _ _ hu => hu)
    (fun _ _ _ hu => hu) h hs

/-- Settles O55: each of the three laws is kept by every primitive change. -/
theorem stepKeepsTheWindowLaws : Obligations.StepKeepsTheWindowLaws := fun _ _ h hwindow hrequest hrecency =>
  ⟨step_keeps_windowLaw h hwindow, step_keeps_requestLaw h hrequest, step_keeps_recencyLaw h hrecency⟩

end Sys2Proof.Machine
end

section
/-! The laws of the marks lists, the report queue and the marked order that every step keeps (R64, R67, R68, R70). -/

namespace Sys2Proof.Machine

/-! ## Marks lists -/

theorem recordsWith_false (m : Marks) : recordsWith false m = m.records.filter fun r => !r.sent := by
  simp [recordsWith]

theorem recordsWith_true (m : Marks) : recordsWith true m = m.records.filter fun r => r.sent := by
  simp [recordsWith]

theorem unsentCount_eq (m : Marks) : unsentCount m.records = (recordsWith false m).length := by
  rw [recordsWith_false, unsentCount, List.countP_eq_length_filter]

@[simp] theorem unsentAt_iff {c : CellIndex} {q : MarkRecord} : unsentAt c q = true ↔ q.sent = false ∧ q.cell = c := by
  simp [unsentAt]

section
variable {m : Marks} {r : MarkRecord}

theorem any_unsentAt_iff : m.records.any (unsentAt r.cell) = true ↔ ∃ q ∈ recordsWith false m, q.cell = r.cell := by
  simp [recordsWith_false, and_assoc]

/-- What a new unsent record does to a marks list: it replaces an unsent record of its cell, joins fewer than eight, or sets
the overflow flag (R64). -/
theorem Marks.add_cases (m : Marks) (r : MarkRecord) :
    ((∃ q ∈ recordsWith false m, q.cell = r.cell) ∧
      m.add r = { m with records := m.records.map fun q => if q.sent = false ∧ q.cell = r.cell then r else q }) ∨
    ((∀ q ∈ recordsWith false m, q.cell ≠ r.cell) ∧ (recordsWith false m).length < 8 ∧
      m.add r = { m with records := m.records ++ [r] }) ∨
    ((∀ q ∈ recordsWith false m, q.cell ≠ r.cell) ∧ 8 ≤ (recordsWith false m).length ∧
      m.add r = { m with overflow := true }) := by
  unfold Marks.add
  rw [unsentCount_eq]
  split
  · exact .inl ⟨any_unsentAt_iff.mp ‹_›, by simp⟩
  · rename_i h
    rw [any_unsentAt_iff] at h
    push Not at h
    split
    · exact .inr (.inl ⟨h, ‹_›, rfl⟩)
    · exact .inr (.inr ⟨h, by omega, rfl⟩)

/-- A replaced record is of the replacing one's cell, and both are unsent: the cells of the unsent records and the sent
records stay. -/
theorem map_replace_filter (hr : r.sent = false) (rs : List MarkRecord) :
    ((rs.map fun q => if q.sent = false ∧ q.cell = r.cell then r else q).filter (fun q => !q.sent)).map MarkRecord.cell =
        (rs.filter fun q => !q.sent).map MarkRecord.cell ∧
      (rs.map fun q => if q.sent = false ∧ q.cell = r.cell then r else q).filter (fun q => q.sent) =
        rs.filter fun q => q.sent := by
  induction rs with
  | nil => simp
  | cons q rs ih =>
    obtain ⟨hcells, hsent⟩ := ih
    by_cases h : q.sent = false ∧ q.cell = r.cell
    · simp only [List.map_cons, if_pos h]
      simp [hr, h.1, h.2, hcells, hsent]
    · simp only [List.map_cons, if_neg h]
      cases hq : q.sent <;> simp [hq, hcells, hsent]

theorem Marks.add_inRange (hm : m.InRange) (hr : r.sent = false) : (m.add r).InRange := by
  obtain ⟨hunsent, hcells, hsent⟩ := id hm
  rcases m.add_cases r with ⟨-, e⟩ | ⟨hfresh, hlt, e⟩ | ⟨-, -, e⟩ <;> rw [e]
  · obtain ⟨h1, h2⟩ := map_replace_filter hr m.records
    refine ⟨?_, ?_, ?_⟩
    · have hlen := congrArg List.length h1
      simp only [List.length_map] at hlen
      rw [recordsWith_false, hlen, ← recordsWith_false]
      exact hunsent
    · rw [recordsWith_false, h1, ← recordsWith_false]
      exact hcells
    · rw [recordsWith_true, h2, ← recordsWith_true]
      exact hsent
  · have hfalse : recordsWith false { m with records := m.records ++ [r] } = recordsWith false m ++ [r] := by
      simp [recordsWith, hr]
    have htrue : recordsWith true { m with records := m.records ++ [r] } = recordsWith true m := by
      simp [recordsWith, hr]
    refine ⟨by rw [hfalse, List.length_append]; exact hlt, ?_, htrue ▸ hsent⟩
    rw [hfalse]
    simpa [List.nodup_append, hcells] using fun q hq e => hfresh q hq e
  · exact hm

/-- A list that holds no sent record still holds none, and a record or the overflow flag stands after the mark. -/
theorem Marks.add_unsent (hm : recordsWith true m = []) (hr : r.sent = false) :
    recordsWith true (m.add r) = [] ∧ ((m.add r).records ≠ [] ∨ (m.add r).overflow) := by
  rw [recordsWith_true] at hm ⊢
  rcases m.add_cases r with ⟨⟨q, hq, -⟩, e⟩ | ⟨-, -, e⟩ | ⟨-, -, e⟩ <;> rw [e]
  · refine ⟨(map_replace_filter hr m.records).2.trans hm, .inl fun h => ?_⟩
    rw [recordsWith_false, List.map_eq_nil_iff.mp h] at hq
    cases hq
  · exact ⟨by simpa [hr] using hm, .inl (by simp)⟩
  · exact ⟨hm, .inr rfl⟩

theorem Marks.addSent_inRange (now : Time) (hm : m.InRange) (hr : r.sent = false) : (m.addSent now r).InRange := by
  rcases m.addSent_cases now r with ⟨-, e⟩ | ⟨-, e⟩ <;> rw [e]
  · exact hm
  · exact add_inRange hm hr

theorem noMarks_inRange : noMarks.InRange := by simp [Marks.InRange, noMarks, recordsWith]

/-- With no record sent, a list holds at most eight records, and its report sends them all (R71). -/
theorem Marks.afterReport_inRange (now : Time) (hm : m.InRange) (hu : recordsWith true m = []) :
    (m.afterReport now).InRange := by
  have hall : m.records = recordsWith false m := by
    rw [recordsWith_false, eq_comm, List.filter_eq_self]
    simpa [recordsWith_true] using hu
  have hlen : m.records.length ≤ 8 := by
    rw [hall]
    exact hm.1
  simp [Marks.InRange, recordsWith, Marks.afterReport, List.filter_map, Function.comp_def, hlen]

end

theorem reapply_sublist (response : Vector ResponseRecord 16) (rs : List MarkRecord) (cells : Cells) :
    (reapply response rs cells).1.Sublist (rs.filter fun r => !r.sent) := by
  induction rs generalizing cells with
  | nil => exact List.Sublist.refl _
  | cons r rs ih =>
    rw [reapply]
    split
    · rename_i h
      simp only [Bool.and_eq_true, Bool.not_eq_true'] at h
      simpa [h.1] using ih _
    · cases hr : r.sent
      · simpa [hr] using (ih cells).cons r
      · simpa [hr] using ih cells

/-- The records that a merged tile keeps are unsent records of the slot's list, in order. -/
theorem Marks.kept_inRange {m : Marks} {kept : List MarkRecord} {n : Marks} (hm : m.InRange)
    (hk : kept.Sublist (recordsWith false m)) (hn : n.records = kept) : n.InRange ∧ recordsWith true n = [] := by
  have hunsent : ∀ r ∈ kept, r.sent = false := fun r hr => by
    have := hk.subset hr
    rw [recordsWith_false] at this
    simpa using (List.mem_filter.mp this).2
  have hf : recordsWith false n = kept := by
    rw [recordsWith_false, hn, List.filter_eq_self]
    simpa using hunsent
  have ht : recordsWith true n = [] := by
    rw [recordsWith_true, hn, List.filter_eq_nil_iff]
    simpa using hunsent
  refine ⟨⟨?_, ?_, by simp [ht]⟩, ht⟩
  · rw [hf]
    exact hk.length_le.trans hm.1
  · rw [hf]
    exact hm.2.1.sublist (hk.map _)

/-! ## The laws, of a window alone -/

/-- The law of the marks lists, of one slot (R64, R70). -/
def Slot.MarksInRange : Slot → Prop
  | .marked _ m => m.InRange ∧ recordsWith true m = [] ∧ (m.records ≠ [] ∨ m.overflow)
  | .sent _ m => m.InRange
  | _ => True

/-- The law of the report queue, of a window and the queue (R68). -/
def TileWindow.QueuesMarked (w : TileWindow) (queue : List TileKey) : Prop :=
  queue.length ≤ 4 ∧ queue.Nodup ∧ ∀ k ∈ queue, ∃ i : SlotNo, ∃ t m, w.slot i = .marked t m ∧ t.key = k

/-- The law of the marked order, of a window and the order (R67). -/
def TileWindow.OrdersMarked (w : TileWindow) (order : List SlotNo) : Prop :=
  order.Nodup ∧ ∀ i : SlotNo, i ∈ order ↔ (w.slot i).isMarked

theorem marksLaw_iff {s : State} : MarksLaw s ↔ ∀ i, (s.twn.slot i).MarksInRange := by
  refine forall_congr' fun i => ?_
  cases s.twn.slot i <;> rfl

section
variable {w : TileWindow} {i : SlotNo} {x : Slot} {queue : List TileKey} {order : List SlotNo}

theorem TileWindow.marksInRange_put (h : ∀ j, (w.slot j).MarksInRange) (hx : x.MarksInRange) :
    ∀ j, ((w.put i x).slot j).MarksInRange := fun j => by
  rw [slot_put]
  split
  · exact hx
  · exact h j

/-- A record written leaves the report queue's law when a MARKED slot stays MARKED with its key. -/
theorem TileWindow.QueuesMarked.put (h : w.QueuesMarked queue)
    (hx : ∀ t m, w.slot i = .marked t m → ∃ u n, x = .marked u n ∧ u.key = t.key) : (w.put i x).QueuesMarked queue := by
  refine ⟨h.1, h.2.1, fun k hk => ?_⟩
  obtain ⟨j, t, m, hj, rfl⟩ := h.2.2 k hk
  by_cases hij : i = j
  · subst hij
    obtain ⟨u, n, rfl, hu⟩ := hx t m hj
    exact ⟨i, u, n, slot_put_self w i _, hu⟩
  · exact ⟨j, t, m, by rw [slot_put_of_ne w x hij, hj], rfl⟩

theorem TileWindow.QueuesMarked.put_of_not_marked (h : w.QueuesMarked queue) (hi : (w.slot i).isMarked = false) :
    (w.put i x).QueuesMarked queue :=
  h.put fun t m ht => by rw [ht] at hi; cases hi

theorem TileWindow.QueuesMarked.offered (h : w.QueuesMarked queue) {t : Tile} {m : Marks} (hi : w.slot i = .marked t m) :
    w.QueuesMarked (offered t.key queue) := by
  unfold Machine.offered
  split
  · rename_i hq
    refine ⟨by simpa using hq.1, ?_, fun k hk => ?_⟩
    · simpa [List.nodup_append] using ⟨h.2.1, fun a ha e => hq.2 (e ▸ ha)⟩
    · rcases List.mem_append.mp hk with hk | hk
      · exact h.2.2 k hk
      · exact ⟨i, t, m, hi, (List.mem_singleton.mp hk).symm⟩
  · exact h

theorem TileWindow.OrdersMarked.put (h : w.OrdersMarked order) (hx : x.isMarked = (w.slot i).isMarked) :
    (w.put i x).OrdersMarked order := by
  refine ⟨h.1, fun j => ?_⟩
  rw [slot_put]
  split
  · rename_i hij
    rw [h.2 j, hx, hij]
  · exact h.2 j

/-- A slot that becomes MARKED joins the end of the order (R67). -/
theorem TileWindow.OrdersMarked.join (h : w.OrdersMarked order) (hi : (w.slot i).isMarked = false) (hx : x.isMarked = true) :
    (w.put i x).OrdersMarked (order ++ [i]) := by
  have hni : i ∉ order := fun hin => by rw [(h.2 i).mp hin] at hi; cases hi
  refine ⟨?_, fun j => ?_⟩
  · simpa [List.nodup_append] using ⟨h.1, fun a ha e => hni (e ▸ ha)⟩
  · rw [slot_put, List.mem_append, List.mem_singleton, h.2 j]
    split
    · simp [hx, (‹i = j› : i = j)]
    · rename_i hij
      simp [Ne.symm hij]

/-- A slot that is MARKED no longer leaves the order (R67). -/
theorem TileWindow.OrdersMarked.leave (h : w.OrdersMarked order) (hx : x.isMarked = false) :
    (w.put i x).OrdersMarked (order.erase i) := by
  refine ⟨h.1.erase i, fun j => ?_⟩
  rw [slot_put, h.1.mem_erase_iff, h.2 j]
  split
  · simp [hx, (‹i = j› : i = j)]
  · rename_i hij
    simp [Ne.symm hij]

/-- The key that enters the report queue is that of a MARKED slot, and not in the queue (R69). -/
theorem refillKey_some {k : TileKey} (h : refillKey w order queue = some k) :
    k ∉ queue ∧ ∃ i ∈ order, ∃ t m, w.slot i = .marked t m ∧ t.key = k := by
  obtain ⟨i, hi, hk⟩ := List.exists_of_findSome?_eq_some h
  cases hs : w.slot i with
  | marked t m =>
    simp only [hs, List.contains_eq_mem, decide_eq_true_eq] at hk
    split at hk
    · cases hk
    · cases hk
      exact ⟨‹_›, i, hi, t, m, hs, rfl⟩
  | _ => simp [hs] at hk

/-- The report queue behind its head, with the key that enters (R69). -/
theorem TileWindow.QueuesMarked.refilled (h : w.QueuesMarked queue) (hlen : queue.length ≤ 3) :
    w.QueuesMarked (queue ++ (refillKey w order queue).toList) := by
  cases hr : refillKey w order queue with
  | none => simpa using h
  | some k =>
    obtain ⟨hk, i, -, t, m, hi, rfl⟩ := refillKey_some hr
    refine ⟨by simp; omega, ?_, fun k' hk' => ?_⟩
    · simpa [List.nodup_append] using ⟨h.2.1, fun a ha e => hk (e ▸ ha)⟩
    · rcases List.mem_append.mp hk' with hk' | hk'
      · exact h.2.2 k' hk'
      · exact ⟨i, t, m, hi, by simpa [eq_comm] using hk'⟩

end

/-! ## The operations of the MRU -/

section
variable {s : State} {i : SlotNo}

/-- A slot that becomes MARKED with a mark keeps the three laws (R65, R67, R75). -/
theorem becomeMarked_keeps {t : Tile} {m : Marks} (hi : (s.twn.slot i).isMarked = false)
    (hm : Slot.MarksInRange (.marked t m)) (hs : MarksLaw s ∧ ReportLaw s ∧ MarkedOrderLaw s) :
    MarksLaw (becomeMarked i t m s) ∧ ReportLaw (becomeMarked i t m s) ∧ MarkedOrderLaw (becomeMarked i t m s) := by
  obtain ⟨hmarks, hreport, horder⟩ := hs
  rw [becomeMarked, offerReport_eq]
  exact ⟨marksLaw_iff.mpr (TileWindow.marksInRange_put (marksLaw_iff.mp hmarks) hm),
    (TileWindow.QueuesMarked.put_of_not_marked hreport hi).offered (TileWindow.slot_put_self _ _ _),
    TileWindow.OrdersMarked.join horder hi rfl⟩

theorem recordMark_keeps {r : MarkRecord} (hr : r.sent = false) (hs : MarksLaw s ∧ ReportLaw s ∧ MarkedOrderLaw s) :
    MarksLaw (recordMark i r s) ∧ ReportLaw (recordMark i r s) ∧ MarkedOrderLaw (recordMark i r s) := by
  obtain ⟨hmarks, hreport, horder⟩ := id hs
  have hi := marksLaw_iff.mp hmarks i
  unfold recordMark
  split <;> rename_i hslot <;> rw [hslot] at hi
  · exact becomeMarked_keeps (by rw [hslot]; rfl)
      ⟨Marks.add_inRange noMarks_inRange hr, Marks.add_unsent (m := noMarks) rfl hr⟩ hs
  · exact ⟨marksLaw_iff.mpr (TileWindow.marksInRange_put (marksLaw_iff.mp hmarks)
        ⟨Marks.add_inRange hi.1 hr, Marks.add_unsent hi.2.1 hr⟩),
      TileWindow.QueuesMarked.put hreport fun t m ht => by rw [hslot] at ht; cases ht; exact ⟨_, _, rfl, rfl⟩,
      TileWindow.OrdersMarked.put horder (by rw [hslot]; rfl)⟩
  · exact ⟨marksLaw_iff.mpr (TileWindow.marksInRange_put (marksLaw_iff.mp hmarks) (Marks.addSent_inRange _ hi hr)),
      TileWindow.QueuesMarked.put_of_not_marked hreport (by rw [hslot]; rfl),
      TileWindow.OrdersMarked.put horder (by rw [hslot]; rfl)⟩
  · exact hs
  · exact hs

theorem mergeTile_keeps {old t : Tile} {m : Marks} (hi : s.twn.slot i = .sent old m)
    (hs : MarksLaw s ∧ ReportLaw s ∧ MarkedOrderLaw s) :
    MarksLaw (mergeTile i t m s) ∧ ReportLaw (mergeTile i t m s) ∧ MarkedOrderLaw (mergeTile i t m s) := by
  obtain ⟨hmarks, hreport, horder⟩ := id hs
  have hm := marksLaw_iff.mp hmarks i
  rw [hi] at hm
  simp only [mergeTile]
  split
  · exact ⟨marksLaw_iff.mpr (TileWindow.marksInRange_put (w := s.twn.touch i) (marksLaw_iff.mp hmarks) trivial),
      TileWindow.QueuesMarked.put_of_not_marked (w := s.twn.touch i) hreport (by rw [TileWindow.slot_touch, hi]; rfl),
      TileWindow.OrdersMarked.put (w := s.twn.touch i) horder (by rw [TileWindow.slot_touch, hi]; rfl)⟩
  · rename_i hkept
    have hsub := reapply_sublist s.tbs.response m.records t.cells
    rw [← recordsWith_false] at hsub
    obtain ⟨hrange, hunsent⟩ := Marks.kept_inRange
      (n := { m with records := (reapply s.tbs.response m.records t.cells).1, eightSentAt := none }) hm hsub rfl
    exact becomeMarked_keeps (s := { s with twn := s.twn.touch i })
      (by rw [TileWindow.slot_touch, hi]; rfl)
      ⟨hrange, hunsent, .inl (by simpa using hkept)⟩ hs

/-- A report's building sends the slot, and its key gives way to the next one (R69, R71). -/
theorem afterReport_keeps {t : Tile} {m : Marks} {rest : List TileKey} (hq : s.mru.reportQueue = t.key :: rest)
    (hi : s.twn.slot i = .marked t m) (hs : MarksLaw s ∧ ReportLaw s ∧ MarkedOrderLaw s) :
    MarksLaw (afterReport i t m rest s) ∧ ReportLaw (afterReport i t m rest s) ∧
      MarkedOrderLaw (afterReport i t m rest s) := by
  obtain ⟨hmarks, ⟨hlen, hnodup, hkeys⟩, horder⟩ := id hs
  have hm := marksLaw_iff.mp hmarks i
  rw [hi] at hm
  rw [hq] at hlen hnodup hkeys
  obtain ⟨hhead, hnodup⟩ := List.nodup_cons.mp hnodup
  have hrest : (s.twn.put i (.sent t (m.afterReport s.pot.timeCount))).QueuesMarked rest := by
    refine ⟨by simp at hlen; omega, hnodup, fun k hk => ?_⟩
    obtain ⟨j, u, n, hj, rfl⟩ := hkeys k (.tail _ hk)
    refine ⟨j, u, n, ?_, rfl⟩
    rw [TileWindow.slot_put_of_ne _ _ fun e => ?_, hj]
    rw [← e, hi] at hj
    cases hj
    exact hhead hk
  exact ⟨marksLaw_iff.mpr (TileWindow.marksInRange_put (marksLaw_iff.mp hmarks) (Marks.afterReport_inRange _ hm.1 hm.2.1)),
    hrest.refilled (by simpa [Nat.lt_succ_iff] using hlen), TileWindow.OrdersMarked.leave horder rfl⟩

/-- A record that marks nothing, in a slot that is not MARKED, leaves the three laws. -/
theorem put_keeps {x : Slot} (hi : (s.twn.slot i).isMarked = false) (hx : x.MarksInRange ∧ x.isMarked = false)
    (hs : MarksLaw s ∧ ReportLaw s ∧ MarkedOrderLaw s) :
    (∀ j, ((s.twn.put i x).slot j).MarksInRange) ∧ (s.twn.put i x).QueuesMarked s.mru.reportQueue ∧
      (s.twn.put i x).OrdersMarked s.mru.markedOrder :=
  ⟨TileWindow.marksInRange_put (marksLaw_iff.mp hs.1) hx.1, TileWindow.QueuesMarked.put_of_not_marked hs.2.1 hi,
    TileWindow.OrdersMarked.put hs.2.2 (hx.2.trans hi.symm)⟩

end

theorem slotToTake_not_marked {w : TileWindow} {p : Pose} {i : SlotNo} (h : w.slotToTake p = some i) :
    (w.slot i).isMarked = false := by
  rcases TileWindow.slotToTake_some h with h | ⟨t, h⟩ <;> rw [h] <;> rfl

/-- The three laws read the slots, the report queue and the marked order alone. -/
theorem markLaws_iff {s : State} : (MarksLaw s ∧ ReportLaw s ∧ MarkedOrderLaw s) ↔
    (∀ i, (s.twn.slot i).MarksInRange) ∧ s.twn.QueuesMarked s.mru.reportQueue ∧ s.twn.OrdersMarked s.mru.markedOrder := by
  rw [marksLaw_iff]
  rfl

theorem Change.keeps_markLaws {s t : State} (h : Change s t) (hs : MarksLaw s ∧ ReportLaw s ∧ MarkedOrderLaw s) :
    MarksLaw t ∧ ReportLaw t ∧ MarkedOrderLaw t := by
  cases h with
  | level n hm hn =>
    have hnone := TileWindow.holdsMarks_eq_false.mp hm
    obtain ⟨hmarks, ⟨hlen, hnodup, hkeys⟩, horder, hmem⟩ := hs
    have hq : s.mru.reportQueue = [] := List.eq_nil_iff_forall_not_mem.mpr fun k hk => by
      obtain ⟨i, u, n, hi, -⟩ := hkeys k hk
      have := (hnone i).1
      rw [hi] at this
      cases this
    have hslot : ∀ i, (withPose { (levelChange s).pot.pose with level := n } (levelChange s)).twn.slot i = .empty :=
      fun i => slot_emptyWindow _ i
    refine markLaws_iff.mpr ⟨fun i => by rw [hslot]; trivial, ⟨hlen, hnodup, fun k hk => ?_⟩, horder, fun i => ?_⟩
    · exact absurd (hq ▸ hk : k ∈ ([] : List TileKey)) (List.not_mem_nil)
    · rw [hslot]
      exact (hmem i).trans (by rw [(hnone i).1]; rfl)
  | openRequest i k hf hp hl hi =>
    exact markLaws_iff.mpr (put_keeps (slotToTake_not_marked hi) ⟨trivial, rfl⟩ hs)
  | mark i tile r hi hr => exact recordMark_keeps hr hs
  | expire i k at_ hi => exact markLaws_iff.mpr (put_keeps (by rw [hi]; rfl) ⟨trivial, rfl⟩ hs)
  | answer i k at_ tile hi hk => exact markLaws_iff.mpr (put_keeps (by rw [hi]; rfl) ⟨trivial, rfl⟩ hs)
  | replace i old tile hi hk => exact markLaws_iff.mpr (put_keeps (by rw [hi]; rfl) ⟨trivial, rfl⟩ hs)
  | unsolicited i tile hi hf hl =>
    exact markLaws_iff.mpr (put_keeps (by rw [TileWindow.lowestEmpty_some hi]; rfl) ⟨trivial, rfl⟩ hs)
  | dropClean i tile hi => exact markLaws_iff.mpr (put_keeps (by rw [hi]; rfl) ⟨trivial, rfl⟩ hs)
  | offer i tile m hi =>
    rw [offerReport_eq]
    exact ⟨hs.1, TileWindow.QueuesMarked.offered hs.2.1 hi, hs.2.2⟩
  | report i tile m rest hq hf hi => exact afterReport_keeps hq hi hs
  | loseHead =>
    obtain ⟨hmarks, ⟨hlen, hnodup, hkeys⟩, horder⟩ := hs
    exact ⟨hmarks, ⟨(List.tail_sublist _).length_le.trans hlen, hnodup.tail, fun k hk => hkeys k (List.mem_of_mem_tail hk)⟩, horder⟩
  | takeHead => rw [takeHead_only]; exact hs
  | retry f => rw [queueRetry_eq]; exact hs
  | lineError l => cases l <;> exact hs
  | _ => exact hs

theorem Release.keeps_markLaws {s t : State} (h : Release s t) (hs : MarksLaw s ∧ ReportLaw s ∧ MarkedOrderLaw s) :
    MarksLaw t ∧ ReportLaw t ∧ MarkedOrderLaw t := by
  cases h with
  | dropSent i tile m hi => exact markLaws_iff.mpr (put_keeps (by rw [hi]; rfl) ⟨trivial, rfl⟩ hs)
  | merge i old tile m hi hk => exact mergeTile_keeps hi hs
  | powerOn => exact ⟨reset_marksLaw, reset_reportLaw, reset_markedOrderLaw⟩
  | restart => exact ⟨reset_marksLaw, reset_reportLaw, reset_markedOrderLaw⟩

theorem step_keeps_markLaws {s t : State} (h : step s = .next t) (hs : MarksLaw s ∧ ReportLaw s ∧ MarkedOrderLaw s) :
    MarksLaw t ∧ ReportLaw t ∧ MarkedOrderLaw t :=
  step_keeps (P := fun u => MarksLaw u ∧ ReportLaw u ∧ MarkedOrderLaw u) (fun _ _ => Change.keeps_markLaws)
    (fun _ _ => Release.keeps_markLaws) (fun _ _ hu => hu) (fun _ _ _ hu => hu) h hs

/-- Settles O56: the three laws of the MRU are kept together by every primitive change, and the law of the keys by O55's. -/
theorem stepKeepsTheMarkLaws : Obligations.StepKeepsTheMarkLaws := fun _ _ h hwindow hmarks hreport horder =>
  ⟨step_keeps_windowLaw h hwindow, step_keeps_markLaws h ⟨hmarks, hreport, horder⟩⟩

end Sys2Proof.Machine
end

section
/-! The laws of the phases, the DAU's items, the brush record, the waiting frames, the Drive Link's transmitter and LOADING
that every step keeps (R73, R104, R114, R116, R136, R139, R143, R157, R161, R174). -/

namespace Sys2Proof.Machine

/-! ## Phases and the DAU's items -/

/-- The DAU's record outside APPROACH and UNDOCKING: no phase, no timer and no reverse measure (R143). -/
structure DockUnit.Quiet (d : DockUnit) : Prop where
  phase : d.phase = .none
  timer : d.beaconTimer = none
  reverse : d.reverse = none
  search : d.searchTurn ≤ 4223
  contact : d.contactCount ≤ 5
  wait : d.idWait ≤ 10

theorem idleDock_quiet : idleDock.Quiet := by constructor <;> decide

theorem anySuspect_iff {p : PerSensor (Option Measure)} : anySuspect p = true ↔ ∃ x, (p.get x).isSome = true := by
  constructor
  · intro h
    simp only [anySuspect, Bool.or_eq_true] at h
    rcases h with ((h | h) | h) | h
    exacts [⟨.fl, h⟩, ⟨.fr, h⟩, ⟨.sl, h⟩, ⟨.sr, h⟩]
  · rintro ⟨x, h⟩
    cases x <;> simp_all [anySuspect, PerSensor.get]

theorem PerSensor.get_set {α : Type} (p : PerSensor α) (x y : CliffSensor) (v : α) :
    (p.set x v).get y = if x = y then v else p.get y := by
  cases x <;> cases y <;> rfl

theorem PerSensor.get_map {α β : Type} (f : α → β) (p : PerSensor α) (x : CliffSensor) : (p.map f).get x = f (p.get x) := by
  cases x <;> rfl

@[simp] theorem anySuspect_noSuspects : anySuspect noSuspects = false := rfl

section
variable {s : State} {r : RunState}

theorem quiet_of_laws (hp : PhaseLaw s) (hd : DockLaw s) (ha : s.rct.state ≠ .approach) (hu : s.rct.state ≠ .undocking) :
    s.dau.Quiet := by
  have hphase : s.dau.phase = .none := by_contra fun h => ha (hp.approach.mp h)
  refine ⟨hphase, ?_, ?_, hd.search, hd.contact, hd.wait⟩
  · simpa [hphase] using hd.timer
  · simpa [hphase, hu] using hd.reverse

theorem dockLaw_of_quiet (hq : s.dau.Quiet) (hu : s.rct.state ≠ .undocking) (hb : s.rfx.approachBumps ≤ 3) : DockLaw s where
  timer := by simp [hq.timer, hq.phase]
  reverse := by simp [hq.reverse, hq.phase, hu]
  search := hq.search
  contact := hq.contact
  wait := hq.wait
  bumps := hb

/-- A change of run state leaves the DAU quiet, unless it leads to APPROACH or UNDOCKING (R143). -/
theorem changeRun_quiet (hp : PhaseLaw s) (hd : DockLaw s) (ha : r ≠ .approach) (hu : r ≠ .undocking) :
    (changeRun r s).dau.Quiet := by
  simp only [changeRun]
  split
  · exact idleDock_quiet
  · rename_i h
    refine quiet_of_laws hp hd (fun e => h ?_) (fun e => h ?_) <;> simp [e, RunState.docking]
    · exact Ne.symm ha
    · exact Ne.symm hu

theorem changeRun_suspects (hs : anySuspect (changeRun r s).rfx.suspects) : r.keepsSuspicion := by
  simp only [changeRun] at hs
  split at hs
  · assumption
  · cases hs

theorem changeRun_pendingStep (h : (changeRun r s).rct.pendingStep) : r = .step := by
  simp only [changeRun, Bool.and_eq_true, beq_iff_eq] at h
  exact h.2

theorem changeRun_phase (hr : r ≠ .reflex) : (changeRun r s).rfx.phase = .none := if_neg hr

/-- A change of run state to a plain state keeps both laws (R114, R116, R136, R143). -/
theorem changeRun_keeps (hr : r.plain = true) (hp : PhaseLaw s) (hd : DockLaw s) :
    PhaseLaw (changeRun r s) ∧ DockLaw (changeRun r s) := by
  have ⟨hreflex, happroach, hundock⟩ : r ≠ .reflex ∧ r ≠ .approach ∧ r ≠ .undocking := by
    cases r <;> simp_all [RunState.plain]
  have hq := changeRun_quiet hp hd happroach hundock
  refine ⟨⟨?_, ?_, changeRun_suspects, changeRun_pendingStep⟩, dockLaw_of_quiet hq hundock hd.bumps⟩
  · simp [changeRun_phase hreflex, hreflex]
  · simp [hq.phase, happroach]

/-- A primitive move of the DAU's record keeps both laws (R143). -/
theorem DockMove.keeps {d : DockUnit} (h : DockMove s.rct.state s.pot.timeCount s.dau d) (hp : PhaseLaw s) (hd : DockLaw s) :
    PhaseLaw (withDock d s) ∧ DockLaw (withDock d s) := by
  have happroach : ∀ {p : ApproachPhase}, s.dau.phase = p → p ≠ .none → s.rct.state = .approach :=
    fun h hp' => hp.approach.mp (h ▸ hp')
  have hreverse := hd.reverse
  cases h with
  | observe x hph =>
    exact ⟨{ hp with }, { hd with timer := by simp [hph] }⟩
  | note x => exact ⟨{ hp with }, { hd with }⟩
  | count n hn => exact ⟨{ hp with }, { hd with contact := hn }⟩
  | contact hph =>
    have hst : s.rct.state = .approach := by rcases hph with h | h <;> exact happroach h (by simp)
    refine ⟨{ hp with approach := by simp [hst] },
      { hd with timer := by simp, reverse := ?_, search := by simp, contact := by simp, wait := by simp }⟩
    rcases hph with h | h <;> simpa [hst, h] using hreverse
  | contactLost hph =>
    have hst := happroach hph (by simp)
    exact ⟨{ hp with approach := by simp [hst] },
      { hd with timer := by simp, reverse := by simpa [hst, hph] using hreverse, contact := by simp, wait := by simp }⟩
  | wait n hn => exact ⟨{ hp with }, { hd with wait := hn }⟩
  | turn n hn => exact ⟨{ hp with }, { hd with search := hn }⟩
  | found x hph =>
    have hst := happroach hph (by simp)
    exact ⟨{ hp with approach := by simp [hst] },
      { hd with timer := by simp, reverse := by simpa [hst, hph] using hreverse, search := by simp }⟩
  | search hph =>
    have hst := happroach hph (by simp)
    exact ⟨{ hp with approach := by simp [hst] },
      { hd with timer := by simp, reverse := by simpa [hst, hph] using hreverse, search := by simp }⟩
  | halt hst =>
    exact ⟨{ hp with approach := by simp [hst] },
      { hd with timer := by simp, reverse := by simp [hst], contact := by simp, wait := by simp }⟩
  | back hph =>
    have hst := happroach hph (by simp)
    exact ⟨{ hp with approach := by simp [hst] },
      { hd with timer := by simpa [hph] using hd.timer, reverse := by simp }⟩
  | resume hph =>
    have hst := happroach hph (by simp)
    exact ⟨{ hp with approach := by simp [hst] }, { hd with timer := by simp, reverse := by simp [hst] }⟩
  | reverse m hm =>
    exact ⟨{ hp with }, { hd with reverse := by simpa [hm] using hreverse }⟩

end

theorem Change.keeps_phaseLaws {s t : State} (h : Change s t) (hs : PhaseLaw s ∧ DockLaw s) : PhaseLaw t ∧ DockLaw t := by
  obtain ⟨hp, hd⟩ := id hs
  cases h with
  | run r hr => exact changeRun_keeps hr hp hd
  | step b =>
    obtain ⟨hp', hd'⟩ := changeRun_keeps (r := .step) rfl hp hd
    exact ⟨{ hp' with pendingStep := fun _ => rfl }, { hd' with }⟩
  | stepTaken => exact ⟨{ hp with pendingStep := nofun }, { hd with }⟩
  | creep c rest hq hk =>
    obtain ⟨hp', hd'⟩ := changeRun_keeps (s := { s with rct := { s.rct with modeQueue := rest } }) (r := .creep) rfl
      { hp with } { hd with }
    exact ⟨{ hp' with }, { hd' with }⟩
  | undock hst =>
    have hdau : (changeRun .undocking s).dau = idleDock := by simp [changeRun, hst, RunState.docking]
    refine ⟨⟨?_, ?_, changeRun_suspects (s := s), changeRun_pendingStep (s := s)⟩, ⟨?_, ?_, ?_, ?_, ?_, hd.bumps⟩⟩ <;>
      simp [takeUndock, hdau, idleDock, changeRun_phase]
  | halt hz hst =>
    have hq := changeRun_quiet (s := discardSegments s) (r := .reflex) { hp with } { hd with } (by simp) (by simp)
    refine ⟨⟨?_, ?_, nofun, changeRun_pendingStep (s := discardSegments s)⟩,
      dockLaw_of_quiet hq (by simp [enterDiscarding]) hd.bumps⟩
    · simp [enterDiscarding]
    · simp [enterDiscarding, hq.phase]
  | phase p h hpn => exact ⟨{ hp with reflex := by simpa [hpn] using hp.reflex.mp h }, { hd with }⟩
  | suspect x m hm =>
    refine ⟨{ hp with suspects := fun h => ?_ }, { hd with }⟩
    obtain ⟨y, hy⟩ := anySuspect_iff.mp h
    rw [show (withSuspect x m s).rfx.suspects = s.rfx.suspects.set x m from rfl, PerSensor.get_set] at hy
    split at hy
    · exact hm hy
    · exact hp.suspects (anySuspect_iff.mpr ⟨y, hy⟩)
  | suspectTravel n =>
    refine ⟨{ hp with suspects := fun h => ?_ }, { hd with }⟩
    obtain ⟨y, hy⟩ := anySuspect_iff.mp h
    rw [show (Machine.suspectTravel n s).rfx.suspects = s.rfx.suspects.map (Option.map fun m => m.add n) from rfl,
      PerSensor.get_map, Option.isSome_map] at hy
    exact hp.suspects (anySuspect_iff.mpr ⟨y, hy⟩)
  | bumpCount => exact ⟨{ hp with }, { hd with bumps := min_le_left _ _ }⟩
  | dock d hmove => exact hmove.keeps hp hd
  | handOver hst =>
    refine ⟨⟨?_, ?_, changeRun_suspects (s := discardSegments s), changeRun_pendingStep (s := discardSegments s)⟩,
      ⟨?_, ?_, ?_, ?_, ?_, ?_⟩⟩ <;> simp [Machine.handOver, enterDiscarding, idleDock, changeRun_phase]
  | takeHead => rw [takeHead_only]; exact ⟨{ hp with }, { hd with }⟩
  | mark i tile r => rw [recordMark_only]; exact ⟨{ hp with }, { hd with }⟩
  | offer i tile m => rw [offerReport_eq]; exact ⟨{ hp with }, { hd with }⟩
  | retry f => rw [queueRetry_eq]; exact ⟨{ hp with }, { hd with }⟩
  | lineError l => cases l <;> exact ⟨{ hp with }, { hd with }⟩
  | _ => exact ⟨{ hp with }, { hd with }⟩

theorem Release.keeps_phaseLaws {s t : State} (h : Release s t) (hs : PhaseLaw s ∧ DockLaw s) : PhaseLaw t ∧ DockLaw t := by
  obtain ⟨hp, hd⟩ := hs
  cases h with
  | dropSent => exact ⟨{ hp with }, { hd with }⟩
  | merge i old tile m => rw [mergeTile_only]; exact ⟨{ hp with }, { hd with }⟩
  | powerOn => exact ⟨{ reset_phaseLaw with }, { reset_dockLaw with }⟩
  | restart =>
    refine ⟨⟨?_, ?_, nofun, nofun⟩, dockLaw_of_quiet idleDock_quiet (by simp [restartBlocks]) (by simp [restartBlocks])⟩ <;>
      simp [restartBlocks, idleDock]

theorem step_keeps_phaseLaws {s t : State} (h : step s = .next t) (hs : PhaseLaw s ∧ DockLaw s) : PhaseLaw t ∧ DockLaw t :=
  step_keeps (P := fun u => PhaseLaw u ∧ DockLaw u) (fun _ _ => Change.keeps_phaseLaws) (fun _ _ => Release.keeps_phaseLaws)
    (fun _ _ hu => ⟨{ hu.1 with }, { hu.2 with }⟩) (fun _ _ _ hu => ⟨{ hu.1 with }, { hu.2 with }⟩) h hs

/-! ## The brush record -/

/-- The law of the brush record reads its reservation and its pending state alone. -/
theorem BrushLaw.of_eq {s t : State} (hs : BrushLaw s) (hr : t.dli.reservation = s.dli.reservation)
    (hp : t.dli.pendingBrush = s.dli.pendingBrush) : BrushLaw t := by
  unfold BrushLaw at *
  rwa [hr, hp]

theorem Change.keeps_brushLaw {s t : State} (h : Change s t) (hs : BrushLaw s) : BrushLaw t := by
  cases h with
  | drive d hr hp he hw => exact hs.of_eq hr hp
  | command b =>
    obtain ⟨hr, hp, -⟩ := sendDrive_dli (.brush (some b))
      { s with dli := { s.dli with
          reservation := some { commanded := b, sentAt := s.pot.timeCount }, pendingBrush := none } }
    simp only [BrushLaw, sendBrushCommand, hr, hp]
    simp
  | hold w r hr =>
    simp only [BrushLaw, hr]
    split
    · simp
    · simpa using ‹_›
  | release hp => exact hp
  | takeHead => rw [takeHead_only]; exact hs
  | mark i tile r => rw [recordMark_only]; exact hs
  | offer i tile m => rw [offerReport_only]; exact hs
  | retry f => rw [queueRetry_only]; exact hs
  | lineError l => cases l <;> exact hs
  | _ => exact hs

theorem Release.keeps_brushLaw {s t : State} (h : Release s t) (hs : BrushLaw s) : BrushLaw t := by
  cases h with
  | dropSent => exact hs
  | merge i old tile m => rw [mergeTile_only]; exact hs
  | powerOn => exact reset_brushLaw
  | restart => exact hs

theorem step_keeps_brushLaw {s t : State} (h : step s = .next t) (hs : BrushLaw s) : BrushLaw t :=
  step_keeps (fun _ _ => Change.keeps_brushLaw) (fun _ _ => Release.keeps_brushLaw) (fun _ _ hu => hu) (fun _ _ _ hu => hu) h hs

/-! ## The waiting frames -/

/-- An EVENT frame takes the place of the waiting one of its kind, or joins the end (R174). -/
theorem putEvent_kinds (f : EventFrame) (waiting : List EventFrame) :
    (putEvent f waiting).map EventFrame.kind =
      if ∃ w ∈ waiting, w.kind = f.kind then waiting.map EventFrame.kind else waiting.map EventFrame.kind ++ [f.kind] := by
  have hany : waiting.any (fun w => w.kind == f.kind) = true ↔ ∃ w ∈ waiting, w.kind = f.kind := by simp
  unfold putEvent
  by_cases h : ∃ w ∈ waiting, w.kind = f.kind
  · rw [if_pos (hany.mpr h), if_pos h, List.map_map]
    refine List.map_congr_left fun w _ => ?_
    simp only [Function.comp_apply, beq_iff_eq]
    split <;> simp_all
  · rw [if_neg (mt hany.mp h), if_neg h]
    simp

theorem putEvent_nodup {waiting : List EventFrame} (h : (waiting.map EventFrame.kind).Nodup) (f : EventFrame) :
    ((putEvent f waiting).map EventFrame.kind).Nodup := by
  rw [putEvent_kinds]
  split
  · exact h
  · rename_i hnone
    push Not at hnone
    simpa [List.nodup_append] using ⟨h, fun w hw => hnone w hw⟩

theorem retried_nodup {waiting : List RetryFrame} (h : (waiting.map fun r => (r.key, r.reason)).Nodup) (f : RetryFrame) :
    ((retried f waiting).map fun r => (r.key, r.reason)).Nodup := by
  unfold retried
  split
  · exact h
  · rename_i hnone
    push Not at hnone
    simpa [List.nodup_append] using ⟨h, hnone⟩

theorem raise_events (k : EventKind) (d : Detail) (s : State) :
    (raise k d s).pli.events =
      if (s.evu.record k).flag || (s.evu.record k).masked then s.pli.events
      else putEvent { kind := k, detail := d, time := s.pot.timeCount, place := s.pot.pose.place } s.pli.events := by
  simp only [raise]
  split <;> rfl

theorem Change.keeps_waitingLaw {s t : State} (h : Change s t) (hs : WaitingLaw s) : WaitingLaw t := by
  cases h with
  | raise k d =>
    refine ⟨?_, by rw [raise_pli]; exact hs.2⟩
    rw [raise_events]
    split
    · exact hs.1
    · exact putEvent_nodup hs.1 _
  | plan p he hr hq hn => exact ⟨hs.1.sublist (he.map _), hs.2.sublist (hr.map _)⟩
  | retry f =>
    rw [queueRetry_eq]
    exact ⟨hs.1, retried_nodup hs.2 f⟩
  | takeHead => rw [takeHead_only]; exact hs
  | mark i tile r => rw [recordMark_only]; exact hs
  | offer i tile m => rw [offerReport_only]; exact hs
  | lineError l => cases l <;> exact hs
  | _ => exact hs

theorem Release.keeps_waitingLaw {s t : State} (h : Release s t) (hs : WaitingLaw s) : WaitingLaw t := by
  cases h with
  | dropSent => exact hs
  | merge i old tile m => rw [mergeTile_only]; exact hs
  | powerOn => exact reset_waitingLaw
  | restart => exact reset_waitingLaw

theorem step_keeps_waitingLaw {s t : State} (h : step s = .next t) (hs : WaitingLaw s) : WaitingLaw t :=
  step_keeps (fun _ _ => Change.keeps_waitingLaw) (fun _ _ => Release.keeps_waitingLaw) (fun _ _ hu => hu)
    (fun _ _ _ hu => hu) h hs

/-! ## The Drive Link's transmitter -/

/-- A frame leaves as soon as one is sent (R157). -/
theorem sendDrive_leaving_ne_none (f : DriveFrame) (s : State) : (sendDrive f s).dli.leaving ≠ none := by
  unfold sendDrive
  cases h : s.dli.leaving <;> simp [h]

theorem Change.keeps_driveQueueLaw {s t : State} (h : Change s t) (hs : DriveQueueLaw s) : DriveQueueLaw t := by
  cases h with
  | drive d hr hp he hw => exact hw hs
  | command b => exact fun h => absurd h (sendDrive_leaving_ne_none _ _)
  | takeHead => rw [takeHead_only]; exact hs
  | mark i tile r => rw [recordMark_only]; exact hs
  | offer i tile m => rw [offerReport_only]; exact hs
  | retry f => rw [queueRetry_only]; exact hs
  | lineError l => cases l <;> exact hs
  | _ => exact hs

theorem Release.keeps_driveQueueLaw {s t : State} (h : Release s t) (hs : DriveQueueLaw s) : DriveQueueLaw t := by
  cases h with
  | dropSent => exact hs
  | merge i old tile m => rw [mergeTile_only]; exact hs
  | powerOn => exact reset_driveQueueLaw
  | restart => exact hs

theorem step_keeps_driveQueueLaw {s t : State} (h : step s = .next t) (hs : DriveQueueLaw s) : DriveQueueLaw t :=
  step_keeps (fun _ _ => Change.keeps_driveQueueLaw) (fun _ _ => Release.keeps_driveQueueLaw) (fun _ _ hu => hu)
    (fun _ _ _ hu => hu) h hs

/-! ## LOADING -/

theorem takeTile_mapOnly (t : Tile) (s : State) : MapOnly s (takeTile t s) := by
  unfold takeTile
  split
  · split
    · unfold takeAtSlot
      split
      · rfl
      · rfl
      · rfl
      · rw [refuseMarked_eq]
        rfl
      · split
        · rw [refuseStale, queueRetry_eq]
          rfl
        · rw [mergeTile_only]
          rfl
    · unfold takeUnsolicited
      split <;> rfl
  · rfl

theorem dropTile_mapOnly (k : TileKey) (s : State) : MapOnly s (dropTile k s) := by
  unfold dropTile
  split
  · rfl
  · split
    · rfl
    · rfl
    · rw [refuseMarked_eq]
      rfl
    · rfl
    · rfl

/-- No primitive change leads into LOADING. -/
theorem Change.keeps_loaded {s t : State} (h : Change s t) (hs : s.rct.state ≠ .loading) : t.rct.state ≠ .loading := by
  cases h with
  | run r hr =>
    intro e
    rw [changeRun_state] at e
    subst e
    cases hr
  | step b => exact nofun
  | creep c rest hq hk => exact nofun
  | undock hst => exact nofun
  | halt hz hst => exact nofun
  | handOver hst => exact nofun
  | takeHead => rw [takeHead_only]; exact hs
  | mark i tile r => rw [recordMark_only]; exact hs
  | offer i tile m => rw [offerReport_only]; exact hs
  | retry f => rw [queueRetry_only]; exact hs
  | lineError l => cases l <;> exact hs
  | _ => exact hs

theorem takePlan_keeps_loaded {c : Instr} {act : State → State} {s : State} (hs : s.rct.state ≠ .loading)
    (hact : (act s).rct.state ≠ .loading) : (takePlan c act s).rct.state ≠ .loading := by
  rcases takePlan_cases c act s with ⟨-, e⟩ | ⟨-, -, e⟩ <;> rw [e]
  · exact hs
  · rwa [arbitrate_rct]

/-- LOADING is entered by POWER_ON alone (R104). -/
theorem exec_keeps_loaded {c : Instr} {s t : State} (hc : c ≠ .powerOn) (h : exec c s = .next t)
    (hs : s.rct.state ≠ .loading) : t.rct.state ≠ .loading := by
  by_cases hrel : releases c = false
  · exact (exec_changes hrel h).keeps (P := fun u => u.rct.state ≠ .loading) (fun _ _ => Change.keeps_loaded) hs
  cases c <;> simp only [releases, not_true] at hrel
  case powerOn => exact absurd rfl hc
  case tile key generation contents =>
    cases h
    exact takePlan_keeps_loaded hs (by rwa [(takeTile_mapOnly _ s).rct])
  case tileDrop key =>
    cases h
    exact takePlan_keeps_loaded hs (by rwa [(dropTile_mapOnly _ s).rct])
  case restart =>
    cases h
    exact takePlan_keeps_loaded hs nofun

theorem step_enters_loading {s t : State} (h : step s = .next t) (ht : t.rct.state = .loading) :
    s.rct.state = .loading ∨ ∃ rest, s.pending = .powerOn :: rest := by
  by_contra hno
  push Not at hno
  obtain ⟨hs, hp⟩ := hno
  unfold step at h
  split at h
  · cases h
    exact hs ht
  · rename_i c rest hpending
    exact exec_keeps_loaded (fun e => hp rest (e ▸ hpending)) h (s := { s with pending := rest }) hs ht

/-- A command that is no POWER_ON leaves LOADING, or leaves the control period and the mode commands as they were: frames are
discarded there, and no control period runs (R104, R108, R166, R169). -/
theorem exec_in_loading {c : Instr} {s t : State} (hc : c ≠ .powerOn) (h : exec c s = .next t)
    (hs : s.rct.state = .loading) (hperiod : s.mgt.period = none) :
    t.rct.state ≠ .loading ∨ (t.mgt.period = s.mgt.period ∧ t.rct.modeQueue = s.rct.modeQueue) := by
  have hplan : ∀ (i : Instr) (act : State → State), .next (takePlan i act s) = (.next t : Host.Outcome State Fault Refusal) →
      t.mgt.period = s.mgt.period ∧ t.rct.modeQueue = s.rct.modeQueue := by
    intro i act e
    rw [show takePlan i act s = countPlanError s by simp [takePlan, hs]] at e
    cases e
    exact ⟨rfl, rfl⟩
  have hline : ∀ (l : Line) (i : Instr) (act : State → State),
      .next (takeLine l i act s) = (.next t : Host.Outcome State Fault Refusal) →
      t.mgt.period = s.mgt.period ∧ t.rct.modeQueue = s.rct.modeQueue := by
    intro l i act e
    rw [show takeLine l i act s = s by simp [takeLine, hs]] at e
    cases e
    exact ⟨rfl, rfl⟩
  cases c with
  | powerOn => exact absurd rfl hc
  | configReadEnd r =>
    refine .inl ?_
    rw [show exec (.configReadEnd r) s = .next (arbitrate (endLoading r s)) from congrArg _ (if_pos hs)] at h
    cases h
    have : (endLoading r s).rct.state = .idle := by
      unfold endLoading raiseDefaulted
      split
      · rfl
      · split <;> rfl
    simp [this]
  | planBadFrame => cases h; exact .inr ⟨rfl, rfl⟩
  | odometryReply tL tR l r => exact .inr (hline _ _ _ h)
  | brushStatus b jam => exact .inr (hline _ _ _ h)
  | senseFrame f => exact .inr (hline _ _ _ h)
  | linkBadFrame l =>
    rw [show exec (.linkBadFrame l) s = .next s from congrArg _ (if_pos hs)] at h
    cases h
    exact .inr ⟨rfl, rfl⟩
  | controlPeriodExpiry =>
    rw [show exec .controlPeriodExpiry s = .next s by simp [exec, execControlPeriodExpiry, periodDue, hperiod]] at h
    cases h
    exact .inr ⟨rfl, rfl⟩
  | requestTimeout i =>
    simp only [exec, execRequestTimeout] at h
    split at h <;> cases h
    · exact .inr ⟨rfl, rfl⟩
    · exact .inr (by simp)
  | brushTimeout =>
    simp only [exec, execBrushTimeout] at h
    split at h <;> cases h
    · exact .inr ⟨rfl, rfl⟩
    · exact .inr (by simp [expireBrush])
  | linkTimeout l =>
    simp only [exec, execLinkTimeout] at h
    split at h <;> cases h
    · refine .inl ?_
      have hstate : (raise (lossEvent l) (lossDetail (watchOf s l)) (loseWatch l s)).rct.state = .loading := by
        cases l <;> exact hs
      rw [arbitrate_rct, loseLine, enterFault, if_neg (by rw [hstate]; exact nofun)]
      exact nofun
    · exact .inr ⟨rfl, rfl⟩
  | backOffTimeLimit =>
    simp only [exec, execBackOffTimeLimit] at h
    split at h <;> cases h
    · exact .inl nofun
    · exact .inr ⟨rfl, rfl⟩
  | lostBeaconExpiry =>
    simp only [exec, execLostBeaconExpiry] at h
    split at h <;> cases h <;> exact .inr ⟨rfl, rfl⟩
  | bumpReverseTimeLimit =>
    simp only [exec, execBumpReverseTimeLimit] at h
    split at h <;> cases h <;> exact .inr ⟨rfl, rfl⟩
  | undockTimeLimit =>
    simp only [exec, execUndockTimeLimit] at h
    split at h <;> cases h
    · exact .inl nofun
    · exact .inr ⟨rfl, rfl⟩
  | statusInterval =>
    simp only [exec, execStatusInterval] at h
    split at h <;> cases h
    · exact .inr (by simp [statusTick])
    · exact .inr ⟨rfl, rfl⟩
  | planTransmitterFree =>
    cases h
    obtain ⟨-, -, hmgt, hrct, -⟩ := chooseFrame_frame { s with pli := { s.pli with leaving := none } }
    exact .inr ⟨congrArg MotionGate.period hmgt, congrArg RunController.modeQueue hrct⟩
  | driveTransmitterFree => cases h; exact .inr ⟨rfl, rfl⟩
  | _ => exact .inr (hplan _ _ h)

theorem step_keeps_loadingLaw {s t : State} (h : step s = .next t) (hs : LoadingLaw s) : LoadingLaw t := by
  intro ht
  unfold step at h
  split at h
  · cases h
    exact hs ht
  · rename_i c rest hpending
    by_cases hc : c = .powerOn
    · subst hc
      cases h
      exact reset_loadingLaw rfl
    · have hstate : s.rct.state = .loading := by_contra fun hno => exec_keeps_loaded hc h (s := { s with pending := rest }) hno ht
      obtain ⟨hperiod, hmodes⟩ := hs hstate
      rcases exec_in_loading hc h (s := { s with pending := rest }) hstate hperiod with hno | ⟨hp, hm⟩
      · exact absurd ht hno
      · exact ⟨hp.trans hperiod, hm.trans hmodes⟩

/-- Settles O57: each law is kept by every primitive change, but that of LOADING, which the commands keep by what they do in
LOADING. -/
theorem stepKeepsThePhaseAndQueueLaws : Obligations.StepKeepsThePhaseAndQueueLaws := fun _ _ h =>
  ⟨fun hp hd => step_keeps_phaseLaws h ⟨hp, hd⟩, step_keeps_brushLaw h, step_keeps_waitingLaw h, step_keeps_driveQueueLaw h,
    step_keeps_loadingLaw h, step_enters_loading h⟩

end Sys2Proof.Machine
end

section
/-! The queue and the timers: what a step takes, which timers are due, and what their expiries do (R20, R48, R88, R117, R128,
R147, R149, R154, R162, R164). -/

namespace Sys2Proof.Machine

/-! ## Every command has a next state -/

theorem step_of_front {c : Instr} {rest : List Instr} {s : State} (h : s.pending = c :: rest) :
    step s = exec c { s with pending := rest } := by
  simp only [step, h]

theorem step_of_empty {s : State} (h : s.pending = []) : step s = .next (tick s) := by
  simp only [step, h]

/-- Settles O1. -/
theorem stepTakesTheFrontCommand : Obligations.StepTakesTheFrontCommand := fun _ _ _ h => step_of_front h

theorem exec_next (c : Instr) (s : State) : ∃ t, exec c s = .next t := by
  cases c with
  | controlPeriodExpiry =>
    simp only [exec, execControlPeriodExpiry]
    split <;> exact ⟨_, rfl⟩
  | requestTimeout i =>
    simp only [exec, execRequestTimeout]
    split <;> exact ⟨_, rfl⟩
  | brushTimeout =>
    simp only [exec, execBrushTimeout]
    split <;> exact ⟨_, rfl⟩
  | _ => exact ⟨_, rfl⟩

/-- Settles O3: the next state is reached by primitive changes, and none of them touches the queue. -/
theorem everyCommandCompletesAndKeepsTheQueue : Obligations.EveryCommandCompletesAndKeepsTheQueue := fun c s => by
  obtain ⟨t, h⟩ := exec_next c s
  exact ⟨t, h, (exec_moves h).pending_eq⟩

/-! ## When a timer is due -/

section
variable {s : State}

theorem elapsed_eq (u t : Time) : elapsed u t = (u - t).toNat := rfl

theorem requestDue_eq_some_iff {i : SlotNo} {k : TileKey} :
    requestDue s i = some k ↔ ∃ at_, s.twn.slot i = .pending k at_ ∧
      2 * s.tbs.cal.requestTimeout ≤ (s.pot.timeCount - at_).toNat := by
  unfold requestDue
  simp only [← elapsed_eq]
  cases h : s.twn.slot i with
  | pending key at_ =>
    simp only [Option.ite_none_right_eq_some, Option.some.injEq, Slot.pending.injEq]
    exact ⟨fun ⟨hdue, hk⟩ => ⟨at_, ⟨hk, rfl⟩, hdue⟩, fun ⟨_, ⟨hk, ht⟩, hdue⟩ => ⟨ht ▸ hdue, hk⟩⟩
  | _ => simp

theorem requestDue_isSome_iff {i : SlotNo} : (requestDue s i).isSome ↔ DueAt s (.requestTimeout i) := by
  simp only [Option.isSome_iff_exists, requestDue_eq_some_iff, DueAt]

theorem periodDue_eq_some_iff {n : Nat} :
    periodDue s = some n ↔ ∃ p, s.mgt.period = some p ∧ 2 * p.length ≤ (s.pot.timeCount - p.start).toNat ∧ p.length = n := by
  unfold periodDue
  cases s.mgt.period <;> simp [← elapsed_eq, -BitVec.toNat_sub]

theorem periodDue_isSome_iff : (periodDue s).isSome ↔ DueAt s .controlPeriodExpiry := by
  simp only [Option.isSome_iff_exists, periodDue_eq_some_iff, DueAt]
  exact ⟨fun ⟨_, p, hp, hdue, _⟩ => ⟨p, hp, hdue⟩, fun ⟨p, hp, hdue⟩ => ⟨_, p, hp, hdue, rfl⟩⟩

theorem backOffDue_iff : backOffDue s = true ↔ DueAt s .backOffTimeLimit := by
  unfold backOffDue DueAt
  cases s.rfx.phase <;> simp [← elapsed_eq, -BitVec.toNat_sub]

theorem beaconDue_iff : beaconDue s = true ↔ DueAt s .lostBeaconExpiry := by
  unfold beaconDue DueAt
  cases s.dau.beaconTimer <;> simp [← elapsed_eq, -BitVec.toNat_sub]

theorem bumpReverseDue_iff : bumpReverseDue s = true ↔ DueAt s .bumpReverseTimeLimit := by
  unfold bumpReverseDue reverseTime DueAt
  cases s.dau.reverse <;> simp [← elapsed_eq, -BitVec.toNat_sub]

theorem undockDue_iff : undockDue s = true ↔ DueAt s .undockTimeLimit := by
  unfold undockDue reverseTime DueAt
  cases s.dau.reverse <;> simp [← elapsed_eq, -BitVec.toNat_sub]

theorem brushDue_eq_some_iff {b : BrushState} :
    brushDue s = some b ↔ ∃ r, s.dli.reservation = some r ∧
      2 * s.tbs.cal.brushTimeout ≤ (s.pot.timeCount - r.sentAt).toNat ∧ r.commanded = b := by
  unfold brushDue
  cases s.dli.reservation <;> simp [← elapsed_eq, -BitVec.toNat_sub]

theorem brushDue_isSome_iff : (brushDue s).isSome ↔ DueAt s .brushTimeout := by
  simp only [Option.isSome_iff_exists, brushDue_eq_some_iff, DueAt]
  exact ⟨fun ⟨_, r, hr, hdue, _⟩ => ⟨r, hr, hdue⟩, fun ⟨r, hr, hdue⟩ => ⟨_, r, hr, hdue, rfl⟩⟩

theorem linkDue_iff {l : Line} : linkDue s l = true ↔ DueAt s (.linkTimeout l) := by
  cases l with
  | drive =>
    unfold linkDue watchOf lineTimeout DueAt
    cases s.dli.watch <;> simp [Watch.timer?, ← elapsed_eq, -BitVec.toNat_sub]
  | sense =>
    unfold linkDue watchOf lineTimeout DueAt
    cases s.snp.watch <;> simp [Watch.timer?, ← elapsed_eq, -BitVec.toNat_sub]

theorem statusDue_iff : statusDue s = true ↔ DueAt s .statusInterval := by
  simp [statusDue, DueAt, ← elapsed_eq, -BitVec.toNat_sub, and_assoc]

/-- The commands that the timers queue are those of the timers that are due. -/
theorem mem_dueCommands_iff {c : Instr} : c ∈ dueCommands s ↔ DueAt s c := by
  simp only [dueCommands, List.mem_append, List.mem_map, List.mem_filter, List.mem_ite_nil_right, List.mem_singleton,
    requestDue_isSome_iff, periodDue_isSome_iff, backOffDue_iff, beaconDue_iff, bumpReverseDue_iff, undockDue_iff,
    brushDue_isSome_iff, linkDue_iff, statusDue_iff, mem_slotNumbers, true_and]
  cases c with
  | requestTimeout i => simp only [Instr.requestTimeout.injEq, exists_eq_right, reduceCtorEq, and_false, or_false]
  | linkTimeout l => cases l <;>
      simp only [Instr.linkTimeout.injEq, reduceCtorEq, and_false, and_true, exists_false, or_false, false_or]
  | _ =>
    simp only [reduceCtorEq, and_false, and_true, exists_false, or_false, false_or] <;> exact Iff.rfl

/-- Which timers are due does not hang on the waiting commands. -/
theorem dueAt_pending (q : List Instr) (c : Instr) : DueAt { s with pending := q } c ↔ DueAt s c := by
  cases c with
  | linkTimeout l => cases l <;> exact Iff.rfl
  | _ => exact Iff.rfl

/-- The commands of all timers, each once. -/
def expiryCommands : List Instr :=
  slotNumbers.map .requestTimeout ++ [.controlPeriodExpiry] ++ [.backOffTimeLimit] ++ [.lostBeaconExpiry] ++
    [.bumpReverseTimeLimit] ++ [.undockTimeLimit] ++ [.brushTimeout] ++ [.linkTimeout .drive] ++ [.linkTimeout .sense] ++
    [.statusInterval]

theorem ite_nil_sublist {α : Type} (p : Prop) [Decidable p] (l : List α) : (if p then l else []).Sublist l := by
  split
  · exact List.Sublist.refl l
  · exact List.nil_sublist l

theorem dueCommands_sublist (s : State) : (dueCommands s).Sublist expiryCommands :=
  ((((((((((List.filter_sublist).map _).append (ite_nil_sublist _ _)).append (ite_nil_sublist _ _)).append
    (ite_nil_sublist _ _)).append (ite_nil_sublist _ _)).append (ite_nil_sublist _ _)).append (ite_nil_sublist _ _)).append
    (ite_nil_sublist _ _)).append (ite_nil_sublist _ _)).append (ite_nil_sublist _ _)

theorem dueCommands_nodup (s : State) : (dueCommands s).Nodup :=
  List.Nodup.sublist (dueCommands_sublist s) (by decide)

end

/-! ## The advance of the time count (R20) -/

theorem insertAt_perm {α : Type} (x : α) (l : List α) (n : Nat) : (insertAt x l n).Perm (x :: l) := by
  induction l generalizing n with
  | nil => exact .refl _
  | cons y rest ih =>
    cases n with
    | zero => exact .refl _
    | succ n => exact ((ih n).cons y).trans (.swap x y rest)

theorem arrange_perm {α : Type} (l : List α) (n : Nat) : (arrange l n).Perm l := by
  induction l generalizing n with
  | nil => exact .refl _
  | cons x rest ih => exact (insertAt_perm x _ _).trans ((ih _).cons x)

/-- Settles O2: the tick queues an arrangement of the due commands. -/
theorem idleStepAdvancesTheTimeCount : Obligations.IdleStepAdvancesTheTimeCount := by
  intro s hs
  let advanced : State := { s with pot := { s.pot with timeCount := s.pot.timeCount + 1 }, choices := s.choices + 1 }
  have hperm : (tick s).pending.Perm (dueCommands advanced) := arrange_perm _ _
  refine ⟨tick s, step_of_empty hs, rfl, hperm.nodup_iff.mpr (dueCommands_nodup _), fun c => ?_⟩
  calc c ∈ (tick s).pending ↔ c ∈ dueCommands advanced := hperm.mem_iff
    _ ↔ DueAt advanced c := mem_dueCommands_iff
    _ ↔ DueAt (tick s) c := (dueAt_pending _ c).symm

/-! ## Changes of run state -/

theorem changeRun_eq (r : RunState) (s : State) : changeRun r s = { s with
    rct := { s.rct with state := r, pendingStep := s.rct.pendingStep && r == .step }
    rfx := { s.rfx with
      phase := if r = .reflex then s.rfx.phase else .none
      suspects := if r.keepsSuspicion then s.rfx.suspects else noSuspects
      armed := if r.moving && !s.rct.state.moving then allArmed else s.rfx.armed }
    dau := if s.rct.state.docking && s.rct.state != r then idleDock else s.dau } := rfl

/-- A change to a state that runs no segment, keeps no suspicion and is not REFLEX (R114, R116, R136, R143). -/
theorem changeRun_of_still {r : RunState} (hk : r.keepsSuspicion = false) (hr : r ≠ .reflex) (s : State) :
    changeRun r s = { s with
      rct := { s.rct with state := r, pendingStep := false }
      rfx := { s.rfx with phase := .none, suspects := noSuspects }
      dau := if s.rct.state.docking && s.rct.state != r then idleDock else s.dau } := by
  have hm : r.moving = false ∧ r ≠ .step := by cases r <;> simp_all [RunState.keepsSuspicion, RunState.moving]
  simp [changeRun_eq, hk, hr, hm.1, hm.2]

/-- The DAU's record at a change to `r`, for a state outside the docking states. -/
theorem changeRun_hold_of_not_docking {s : State} (h : s.rct.state.docking = false) :
    changeRun .hold s = { s with
      rct := { s.rct with state := .hold, pendingStep := false }
      rfx := { s.rfx with phase := .none, suspects := noSuspects } } := by
  rw [changeRun_of_still rfl (by simp), h]
  rfl

theorem changeRun_hold_of_docking {s : State} (h : s.rct.state.docking = true) :
    changeRun .hold s = { s with
      rct := { s.rct with state := .hold, pendingStep := false }
      rfx := { s.rfx with phase := .none, suspects := noSuspects }
      dau := idleDock } := by
  have hne : s.rct.state ≠ .hold := by intro e; simp [e, RunState.docking] at h
  rw [changeRun_of_still rfl (by simp), h, bne_iff_ne.mpr hne]
  rfl

theorem docking_iff {r : RunState} : r.docking = true ↔ r = .approach ∨ r = .docked ∨ r = .undocking := by
  cases r <;> simp [RunState.docking]

/-- The DAU's record at a change of state to one that is no docking state (R143). -/
theorem dau_of_docking {r next : RunState} (hn : next.docking = false) (d : DockUnit) :
    (if r.docking && r != next then idleDock else d) =
      if r = .approach ∨ r = .docked ∨ r = .undocking then idleDock else d := by
  have : (r.docking && r != next) = true ↔ r = .approach ∨ r = .docked ∨ r = .undocking := by
    rw [Bool.and_eq_true, docking_iff, bne_iff_ne, and_iff_left_iff_imp]
    rintro h rfl
    rw [docking_iff.mpr h] at hn
    cases hn
  simp only [this]

/-! ## The Drive Link's frames (R157) -/

/-- A frame leaves at once, or waits behind those that the transmitter holds (R157). -/
theorem sendDrive_eq (f : DriveFrame) (s : State) : sendDrive f s = { s with dli := { s.dli with
    leaving := leavingAfter f s.dli.leaving, waiting := waitingAfter f s.dli.leaving s.dli.waiting } } := by
  unfold sendDrive
  cases h : s.dli.leaving <;> simp [leavingAfter, waitingAfter, h]

theorem sendZero_eq (s : State) : sendZero s = { s with dli := { s.dli with
    lastSetpoints := (0, 0)
    leaving := leavingAfter (.setpoint 0 0) s.dli.leaving
    waiting := waitingAfter (.setpoint 0 0) s.dli.leaving s.dli.waiting } } := sendDrive_eq _ _

theorem sendBrushCommand_eq (b : BrushState) (s : State) : sendBrushCommand b s = { s with dli := { s.dli with
    reservation := some { commanded := b, sentAt := s.pot.timeCount }
    pendingBrush := none
    leaving := leavingAfter (.brush (some b)) s.dli.leaving
    waiting := waitingAfter (.brush (some b)) s.dli.leaving s.dli.waiting } } := sendDrive_eq _ _

/-! ## The moves that end by time -/

section
variable {s : State}

theorem exec_backOffTimeLimit_of_due (h : DueAt s .backOffTimeLimit) :
    exec .backOffTimeLimit s = .next (changeRun .hold s) := congrArg _ (if_pos (backOffDue_iff.mpr h))

theorem exec_lostBeaconExpiry_of_due (h : DueAt s .lostBeaconExpiry) :
    exec .lostBeaconExpiry s = .next (beginSearch s) := congrArg _ (if_pos (beaconDue_iff.mpr h))

theorem exec_bumpReverseTimeLimit_of_due (h : DueAt s .bumpReverseTimeLimit) :
    exec .bumpReverseTimeLimit s = .next (endBumpReverse s) := congrArg _ (if_pos (bumpReverseDue_iff.mpr h))

theorem exec_undockTimeLimit_of_due (h : DueAt s .undockTimeLimit) :
    exec .undockTimeLimit s = .next (changeRun .hold s) := congrArg _ (if_pos (undockDue_iff.mpr h))

theorem exec_requestTimeout_of_due {i : SlotNo} {k : TileKey} (h : requestDue s i = some k) :
    exec (.requestTimeout i) s = .next (arbitrate (expireRequest i k s)) := by
  simp only [exec, execRequestTimeout, h]

theorem exec_brushTimeout_of_due {b : BrushState} (h : brushDue s = some b) :
    exec .brushTimeout s = .next (arbitrate (expireBrush b s)) := by
  simp only [exec, execBrushTimeout, h]

theorem exec_linkTimeout_of_due {l : Line} (h : DueAt s (.linkTimeout l)) :
    exec (.linkTimeout l) s = .next (arbitrate (loseLine l s)) := congrArg _ (if_pos (linkDue_iff.mpr h))

theorem exec_statusInterval_of_due (h : DueAt s .statusInterval) :
    exec .statusInterval s = .next (arbitrate (statusTick s)) := congrArg _ (if_pos (statusDue_iff.mpr h))

theorem exec_controlPeriodExpiry_of_due {p : Period} (hp : s.mgt.period = some p) (h : DueAt s .controlPeriodExpiry) :
    exec .controlPeriodExpiry s = .next (arbitrate (expirePeriod (expiryOrder s) p.length (nextChoice s))) := by
  obtain ⟨q, hq, hdue⟩ := h
  cases hp.symm.trans hq
  simp only [exec, execControlPeriodExpiry, periodDue_eq_some_iff.mpr ⟨p, hp, hdue, rfl⟩]

/-- An expiry command of a timer that is not due changes nothing. -/
theorem exec_of_not_due {c : Instr} (hc : isExpiry c = true) (h : ¬DueAt s c) : exec c s = .next s := by
  cases c <;> simp only [isExpiry, Bool.false_eq_true] at hc
  case controlPeriodExpiry =>
    rw [← periodDue_isSome_iff, Option.not_isSome_iff_eq_none] at h
    simp only [exec, execControlPeriodExpiry, h]
  case requestTimeout i =>
    rw [← requestDue_isSome_iff, Option.not_isSome_iff_eq_none] at h
    simp only [exec, execRequestTimeout, h]
  case brushTimeout =>
    rw [← brushDue_isSome_iff, Option.not_isSome_iff_eq_none] at h
    simp only [exec, execBrushTimeout, h]
  case linkTimeout l => exact congrArg _ (if_neg (mt linkDue_iff.mp h))
  case backOffTimeLimit => exact congrArg _ (if_neg (mt backOffDue_iff.mp h))
  case lostBeaconExpiry => exact congrArg _ (if_neg (mt beaconDue_iff.mp h))
  case bumpReverseTimeLimit => exact congrArg _ (if_neg (mt bumpReverseDue_iff.mp h))
  case undockTimeLimit => exact congrArg _ (if_neg (mt undockDue_iff.mp h))
  case statusInterval => exact congrArg _ (if_neg (mt statusDue_iff.mp h))

end

/-- Settles O38: each end by time is one operation, and an expiry that is not due is the identity. -/
theorem movesEndByTimeAndOnlyWhenDue : Obligations.MovesEndByTimeAndOnlyWhenDue := by
  refine ⟨fun s hphase => ⟨fun h => ?_, fun h => ?_, fun h => ?_, fun h => ?_⟩, fun c s hc h => exec_of_not_due hc h⟩
  · have hstate : s.rct.state = .reflex := by
      obtain ⟨hz, m, hp, -⟩ := h
      exact hphase.reflex.mp (by simp [hp])
    rw [exec_backOffTimeLimit_of_due h, changeRun_hold_of_not_docking (by rw [hstate]; rfl)]
  · exact exec_lostBeaconExpiry_of_due h
  · exact exec_bumpReverseTimeLimit_of_due h
  · rw [exec_undockTimeLimit_of_due h, changeRun_hold_of_docking (by rw [h.1]; rfl)]

/-! ## The timeouts of requests, brush and lines -/

theorem filter_bne_eq (k : TileKey) (requests : List TileKey) :
    (requests.filter fun r => r != k) = requests.filter fun r => decide (r ≠ k) :=
  List.filter_congr fun r _ => by by_cases h : r = k <;> simp [h]

theorem expireRequest_eq (i : SlotNo) (k : TileKey) (s : State) :
    expireRequest i k s = raise .tileLate (.key k)
      { s with
        twn := { s.twn with slots := s.twn.slots.set i .empty, recency := s.twn.recency.erase i }
        pli := { s.pli with requests := s.pli.requests.filter (fun r => r ≠ k) } } := by
  rw [← filter_bne_eq]
  rfl

/-- An occurrence reads neither the Drive Link nor the run state: the DLI's part comes before or after it. -/
theorem expireBrush_eq (b : BrushState) (s : State) :
    expireBrush b s = raise .brushNoAck (.brush b) (sendBrushCommand (s.dli.pendingBrush.getD s.dli.lastWish) s) := by
  rw [expireBrush, sendBrushCommand_eq, sendBrushCommand_eq]
  rfl

theorem enterFault_raise (k : EventKind) (d : Detail) (s : State) :
    enterFault (raise k d s) = raise k d (enterFault s) := by
  unfold enterFault
  rw [raise_rct]
  split <;> rfl

theorem enterFault_of_fault {s : State} (h : s.rct.state = .fault) : enterFault s = s := if_pos h

theorem enterFault_of_not_fault {s : State} (h : s.rct.state ≠ .fault) : enterFault s = { s with
    rct := { s.rct with state := .fault, pendingStep := false }
    mgt := { s.mgt with queue := [], current := none, starved := false }
    rfx := { s.rfx with phase := .none, suspects := noSuspects }
    dau := if s.rct.state = .approach ∨ s.rct.state = .docked ∨ s.rct.state = .undocking then idleDock else s.dau } := by
  rw [enterFault, if_neg h, enterDiscarding, changeRun_of_still rfl (by simp)]
  simp only [dau_of_docking (next := .fault) rfl]
  rfl

/-- Settles O39. -/
theorem lineAndRequestTimeouts : Obligations.LineAndRequestTimeouts := by
  refine ⟨fun i k at_ s hi hdue => ?request, fun r s hr hdue => ?brush, fun l s hdue => ?line⟩
  case request =>
    obtain ⟨k', at', hi', hdue⟩ := hdue
    cases hi.symm.trans hi'
    rw [exec_requestTimeout_of_due (requestDue_eq_some_iff.mpr ⟨at_, hi, hdue⟩), expireRequest_eq]
  case brush =>
    obtain ⟨r', hr', hdue⟩ := hdue
    cases hr.symm.trans hr'
    rw [exec_brushTimeout_of_due (brushDue_eq_some_iff.mpr ⟨r, hr, hdue, rfl⟩), expireBrush_eq, sendBrushCommand_eq]
  case line =>
    rw [exec_linkTimeout_of_due hdue, loseLine, enterFault_raise]
    refine ⟨lossEvent l, lossDetail (watchOf s l), enterFault (loseWatch l s), ?_, ?_, ?_, rfl, ?_, ?_, fun h => ?_, fun h => ?_⟩
    · cases l <;> rfl
    · intro start h
      have : watchOf s l = .up start := by cases l <;> exact h
      rw [this]
      rfl
    · intro start h
      have : watchOf s l = .waiting start := by cases l <;> exact h
      rw [this]
      rfl
    · rintro rfl
      unfold enterFault
      split <;> exact ⟨rfl, rfl⟩
    · rintro rfl
      unfold enterFault
      split <;> exact ⟨rfl, rfl⟩
    · rw [enterFault_of_fault (by cases l <;> exact h)]
      cases l <;> rfl
    · rw [enterFault_of_not_fault (by cases l <;> exact h)]
      cases l <;> rfl

end Sys2Proof.Machine
end

section
/-! Occurrences of events, the resets, the end of LOADING, and the frames that are discarded (R50, R55, R104, R120, R166, R169,
R174, R176, R177). -/

namespace Sys2Proof.Machine

/-! ## An occurrence (R174) -/

theorem putEvent_of_absent {f : EventFrame} {waiting : List EventFrame} (h : ∀ w ∈ waiting, w.kind ≠ f.kind) :
    putEvent f waiting = waiting ++ [f] := by
  rw [putEvent, if_neg]
  simpa using h

theorem putEvent_of_waiting {f w : EventFrame} {before after : List EventFrame} (hw : w.kind = f.kind)
    (h : ∀ o ∈ before ++ after, o.kind ≠ f.kind) : putEvent f (before ++ w :: after) = before ++ f :: after := by
  have hkept (l : List EventFrame) (hl : ∀ o ∈ l, o.kind ≠ f.kind) :
      (l.map fun o => if o.kind == f.kind then f else o) = l :=
    (List.map_congr_left fun o ho => if_neg (by simpa using hl o ho)).trans (List.map_id' l)
  rw [putEvent, if_pos (by simp [hw]), List.map_append, List.map_cons, if_pos (by simp [hw]),
    hkept before fun o ho => h o (List.mem_append_left _ ho), hkept after fun o ho => h o (List.mem_append_right _ ho)]

section
variable {k : EventKind} {d : Detail} {s : State}

theorem raise_record (k : EventKind) (d : Detail) (s : State) (j : EventKind) :
    (raise k d s).evu.record j = if j = k then { s.evu.record k with flag := true, detail := d } else s.evu.record j :=
  EventUnit.record_withRecord _ _ _ _

theorem raise_flagged (k : EventKind) (d : Detail) (s : State) : Flagged (raise k d s) k d := by
  simp [Flagged, raise_record]

theorem raise_eq (k : EventKind) (d : Detail) (s : State) :
    raise k d s = { s with evu := (raise k d s).evu, pli := { s.pli with events := (raise k d s).pli.events } } := by
  rw [← raise_pli]
  rfl

theorem raise_events_of_set (h : (s.evu.record k).flag = true ∨ (s.evu.record k).masked = true) :
    (raise k d s).pli.events = s.pli.events := by
  rw [raise_events, if_pos (by simpa using h)]

theorem raise_events_of_new (hf : (s.evu.record k).flag = false) (hm : (s.evu.record k).masked = false) :
    (raise k d s).pli.events =
      putEvent { kind := k, detail := d, time := s.pot.timeCount, place := s.pot.pose.place } s.pli.events := by
  rw [raise_events, hf, hm]
  rfl

end

theorem others_ne_of_nodup {before after : List EventFrame} {w : EventFrame}
    (h : ((before ++ w :: after).map EventFrame.kind).Nodup) : ∀ o ∈ before ++ after, o.kind ≠ w.kind := by
  have : ((w :: (before ++ after)).map EventFrame.kind).Nodup :=
    (List.perm_middle.map EventFrame.kind).nodup_iff.mp h
  exact fun o ho hk => (List.nodup_cons.mp this).1 (List.mem_map.mpr ⟨o, ho, hk⟩)

/-- Settles O22. -/
theorem occurrenceSetsFlagAndQueuesFrame : Obligations.OccurrenceSetsFlagAndQueuesFrame := by
  intro k d s hnodup
  refine ⟨_, rfl, raise_eq k d s, rfl, raise_record k d s, raise_events_of_set, fun hf hm => ?_⟩
  rw [raise_events_of_new hf hm]
  refine ⟨fun h => putEvent_of_absent h, fun before w after hw hk => ?_⟩
  rw [hw] at hnodup ⊢
  have hothers := others_ne_of_nodup hnodup
  rw [hk] at hothers
  exact putEvent_of_waiting hk hothers

/-- Settles O21: the frame is an occurrence with the detail "forced". -/
theorem forcedEventChangesFlagAlone : Obligations.ForcedEventChangesFlagAlone := by
  intro k s hs
  refine ⟨_, rfl, congrArg Host.Outcome.next (takePlan_of_taken hs rfl _), raise_eq _ _ _, rfl, raise_record _ _ _,
    raise_events_of_set, fun hf hm => ?_⟩
  rw [raise_events_of_new hf hm]
  refine ⟨fun h => putEvent_of_absent h, fun before w after hw hk ho => ?_⟩
  rw [hw]
  exact putEvent_of_waiting hk ho

/-! ## Power-on and Restart (R104, R120, R177) -/

theorem record_reset (k : EventKind) : State.reset.evu.record k = clearRecord := by
  simp [State.reset, EventUnit.record]

/-- Settles O4: power-on is the reset state with the model's own two fields kept. -/
theorem powerOnSetsEveryBlock : Obligations.PowerOnSetsEveryBlock := fun _ =>
  ⟨_, rfl, rfl, rfl, slot_of_emptyWindow, rfl, rfl, rfl, rfl, rfl, rfl, ⟨rfl, rfl, rfl, rfl, rfl, rfl, rfl⟩, ⟨rfl, rfl⟩,
    record_reset, rfl, ⟨rfl, rfl, rfl, rfl, rfl, rfl, rfl, rfl⟩, rfl, rfl, rfl, rfl, rfl, rfl, rfl⟩

theorem restarted_eq (w : Watch) (now : Time) : w.restarted now = if w = .lost then .waiting now else w := by
  cases w <;> simp [Watch.restarted]

theorem restartLines_record (s : State) (k : EventKind) :
    (restartLines s).evu.record k = { s.evu.record k with flag := false } := EventUnit.record_clearAll _ _

theorem restartPart_record (s : State) (k : EventKind) : (restartPart s).evu.record k =
    { flag := decide (k = .restarted)
      detail := if k = .restarted then .none else (s.evu.record k).detail
      masked := (s.evu.record k).masked } := by
  rw [restartPart, raise_record, restartLines_record, restartLines_record]
  split
  next h => simp [h, restartBlocks]
  next h => simp [h, restartBlocks]

theorem restartPart_events (s : State) : (restartPart s).pli.events =
    if (s.evu.record .restarted).masked then []
    else [{ kind := .restarted, detail := .none, time := s.pot.timeCount, place := none }] := by
  have hrecord := restartLines_record (restartBlocks s) .restarted
  cases hm : (s.evu.record .restarted).masked with
  | true =>
    rw [restartPart, raise_events_of_set (.inr (by rw [hrecord]; exact hm))]
    rfl
  | false =>
    rw [restartPart, raise_events_of_new (by rw [hrecord]) (by rw [hrecord]; exact hm)]
    rfl

/-- Settles O5: every block of `restartPart` is as it is written there, but for the Event Unit and the waiting EVENT frame. -/
theorem restartSetsEveryBlock : Obligations.RestartSetsEveryBlock := by
  intro s hs
  refine ⟨restartPart s, congrArg Host.Outcome.next (takePlan_of_taken hs rfl _), rfl, rfl, slot_of_emptyWindow, rfl, rfl, rfl,
    rfl, rfl, rfl, rfl, ?_, ?_, restartPart_record s, rfl, ?_, rfl, rfl⟩
  · rw [← restarted_eq]
    rfl
  · rw [← restarted_eq]
    rfl
  · rw [← restartPart_events, restartPart, raise_pli]
    rfl

/-! ## The end of LOADING (R15, R104) -/

/-- The two bytes of a signed value, read as a number below 2^16 and moved down by 2^16 from 2^15 on. -/
theorem signed16_eq (hi lo : Byte) :
    signed16 hi lo = if 32768 ≤ word16 hi lo then (word16 hi lo : Int) - 65536 else word16 hi lo := by
  have hcat : (hi ++ lo : BitVec 16).toNat = word16 hi lo := by
    rw [BitVec.toNat_append, ← Nat.shiftLeft_add_eq_or_of_lt lo.isLt, Nat.shiftLeft_eq]
    rfl
  rw [signed16, BitVec.toInt_eq_toNat_cond, hcat]
  split <;> split <;> omega

theorem memoryValue_eq (bytes : List Byte) (n : Nat) : memoryValue bytes n = memoryField bytes n := by
  unfold memoryValue memoryField
  simp only [signed16_eq, Bool.and_eq_true, decide_eq_true_eq]
  by_cases hn : 15 ≤ n ∧ n ≤ 22
  · rw [if_pos hn]
    simp only [hn.1, hn.2, true_and, Nat.ofNat_le_cast]
    rfl
  · rw [if_neg hn, if_neg fun h => hn ⟨h.1, h.2.1⟩]
    rfl

theorem memoryValues_getD (bytes : Vector Byte 70) (n : Fin 35) :
    (memoryValues bytes).getD n 0 = memoryField bytes.toList n := by
  rw [← memoryValue_eq]
  simp [memoryValues]

theorem readCalibration_of_answered (values : Vector Byte 70) (n : Fin 35) :
    (readCalibration (.answered 0xC2 values)).values.getD n 0 = heldToRange n (memoryField values.toList n) := by
  rw [← memoryValues_getD, ← storedCalibration_values_getD (memoryValues_length values)]
  rfl

theorem defaultCalibration_values : defaultCalibration.values =
    [512, 236, 170, 8, 350, 450, 150, 10, 40, 20, 300, 40, 50, 100, 1000, 150, 90, 150, -90, 60, 150,
      60, -150, 80, 250, 50, 50, 200, 1500, 80, 60, 500, 300, 100, 0] := rfl

/-- The end of LOADING before its events: every block but the Event Unit and the Plan Link as the read leaves it. -/
def loadingEnded (read : ConfigRead) (s : State) : State :=
  changeRun .idle (beginPeriod (beginWatches (storeCalibration (readCalibration read) s)))

/-- The detail of CONFIG_DEFAULTED, when the read stores the defaults (R15). -/
def defaultedDetail : ConfigRead → Option Detail
  | .unanswered => some .configNoAnswer
  | .answered format _ => if format = 0xC2 then none else some .configBadFormat

theorem endLoading_of_kept {read : ConfigRead} (h : defaultedDetail read = none) (s : State) :
    endLoading read s = raise .powerOn .none (loadingEnded read s) := by
  cases read with
  | unanswered => cases h
  | answered format values => exact if_pos (by by_contra hf; simp [defaultedDetail] at h; exact hf h)

theorem endLoading_of_defaulted {read : ConfigRead} {d : Detail} (h : defaultedDetail read = some d) (s : State) :
    endLoading read s = raise .configDefaulted d (raise .powerOn .none (loadingEnded read s)) := by
  cases read with
  | unanswered => cases h; rfl
  | answered format values =>
    by_cases hf : format = 0xC2
    · simp [defaultedDetail, hf] at h
    · simp only [defaultedDetail, hf, if_false] at h
      cases h
      exact if_neg hf

theorem readCalibration_of_defaulted {read : ConfigRead} {d : Detail} (h : defaultedDetail read = some d) :
    readCalibration read = defaultCalibration := by
  cases read with
  | unanswered => rfl
  | answered format values => exact if_neg fun hf => by simp [defaultedDetail, show format = 0xC2 from hf] at h

/-- What the end of LOADING leaves in each block but the Event Unit and the waiting EVENT frames. -/
theorem endLoading_eq (read : ConfigRead) (s : State) : endLoading read s = { loadingEnded read s with
    evu := (endLoading read s).evu
    pli := { (loadingEnded read s).pli with events := (endLoading read s).pli.events } } := by
  cases h : defaultedDetail read with
  | none => rw [endLoading_of_kept h]; exact raise_eq _ _ _
  | some d => rw [endLoading_of_defaulted h, raise_eq, raise_pli .powerOn]; rfl

theorem endLoading_powerOn (read : ConfigRead) (s : State) : Flagged (endLoading read s) .powerOn .none := by
  cases h : defaultedDetail read with
  | none => rw [endLoading_of_kept h]; exact raise_flagged _ _ _
  | some d =>
    rw [endLoading_of_defaulted h]
    simp [Flagged, raise_record]

theorem endLoading_defaulted {read : ConfigRead} {d : Detail} (h : defaultedDetail read = some d) (s : State) :
    (readCalibration read).values = defaultCalibration.values ∧ Flagged (endLoading read s) .configDefaulted d := by
  rw [endLoading_of_defaulted h, readCalibration_of_defaulted h]
  exact ⟨rfl, raise_flagged _ _ _⟩

/-- The EVENT frames that wait after the end of LOADING, when every record was clear and none waited (R104). -/
theorem endLoading_events (read : ConfigRead) {s : State} (hrecords : ∀ k, s.evu.record k = clearRecord)
    (hevents : s.pli.events = []) : (endLoading read s).pli.events.map EventFrame.kind =
      .powerOn :: if (defaultedDetail read).isSome then [.configDefaulted] else [] := by
  have hrecord (k : EventKind) : (loadingEnded read s).evu.record k = clearRecord := hrecords k
  have hnone : (loadingEnded read s).pli.events = [] := hevents
  have hfirst : (raise .powerOn .none (loadingEnded read s)).pli.events.map EventFrame.kind = [.powerOn] := by
    rw [raise_events_of_new (by rw [hrecord]; rfl) (by rw [hrecord]; rfl), hnone]
    rfl
  cases h : defaultedDetail read with
  | none => rw [endLoading_of_kept h, hfirst]; rfl
  | some d =>
    rw [endLoading_of_defaulted h, raise_events_of_new (by simp [raise_record, hrecord, clearRecord])
      (by simp [raise_record, hrecord, clearRecord]), putEvent_of_absent, List.map_append, hfirst]
    · rfl
    · intro w hw
      have : w.kind = .powerOn := by simpa [hfirst] using List.mem_map_of_mem (f := EventFrame.kind) hw
      simp [this]

/-- Settles O6. -/
theorem powerOnReadEndsLoading : Obligations.PowerOnReadEndsLoading := by
  intro read s hs
  have hrest := endLoading_eq read s
  refine ⟨endLoading read s, congrArg Host.Outcome.next (if_pos hs), ?_⟩
  rw [hrest]
  refine ⟨rfl, rfl, rfl, rfl, rfl, rfl, rfl, rfl, rfl, rfl, ?kept, ?unanswered, ?badFormat, endLoading_powerOn read s, ?events⟩
  case kept =>
    rintro values rfl
    refine ⟨readCalibration_of_answered values, ?_⟩
    rw [endLoading_of_kept (by rfl)]
    simp [raise_record]
    rfl
  case unanswered =>
    rintro rfl
    obtain ⟨hcal, hflag⟩ := endLoading_defaulted (read := .unanswered) (d := .configNoAnswer) rfl s
    exact ⟨hcal.trans defaultCalibration_values, hflag⟩
  case badFormat =>
    rintro format values rfl hf
    obtain ⟨hcal, hflag⟩ := endLoading_defaulted (read := .answered format values) (d := .configBadFormat) (if_neg hf) s
    exact ⟨hcal.trans defaultCalibration_values, hflag⟩
  case events =>
    intro hrecords hevents
    refine (endLoading_events read hrecords hevents).trans ?_
    cases read with
    | unanswered => rfl
    | answered format values =>
      by_cases hf : format = 0xC2
      · simp only [defaultedDetail, hf, if_true]
        rfl
      · simp only [defaultedDetail, hf, if_false]
        rfl

/-! ## Frames that are discarded (R50, R55, R166, R169) -/

section
variable {i : Instr} {s : State}

theorem takePlan_of_loading (hs : s.rct.state = .loading) (act : State → State) : takePlan i act s = countPlanError s := by
  simp [takePlan, hs]

theorem takePlan_of_bad (hi : i.wellFormed = false) (act : State → State) : takePlan i act s = countPlanError s := by
  simp [takePlan, hi]

theorem takeLine_of_taken {l : Line} (hs : s.rct.state ≠ .loading) (hi : i.wellFormed = true) (act : State → State) :
    takeLine l i act s = arbitrate (act s) := by
  simp [takeLine, hs, hi]

theorem takeLine_of_loading {l : Line} (hs : s.rct.state = .loading) (act : State → State) : takeLine l i act s = s := if_pos hs

theorem takeLine_of_bad {l : Line} (hs : s.rct.state ≠ .loading) (hi : i.wellFormed = false) (act : State → State) :
    takeLine l i act s = countLineError l s := by
  simp [takeLine, hs, hi]

/-- A frame of the navigation processor that arrives in LOADING or is bad is discarded and counted. -/
theorem exec_planFrame_of_discarded (hi : isPlanFrame i = true) (h : s.rct.state = .loading ∨ i.wellFormed = false) :
    exec i s = .next (countPlanError s) := by
  have hdrop (act : State → State) : takePlan i act s = countPlanError s :=
    h.elim (fun h => takePlan_of_loading h act) fun h => takePlan_of_bad h act
  cases i <;> first
    | exact congrArg Host.Outcome.next (hdrop _)
    | cases hi

theorem odometryReply_wellFormed_iff {tL tR : Int} {l r : Bool} :
    (Instr.odometryReply tL tR l r).wellFormed = true ↔ (-2047 ≤ tL ∧ tL ≤ 2047) ∧ (-2047 ≤ tR ∧ tR ≤ 2047) := by
  simp [Instr.wellFormed]

end

/-- Settles O7. -/
theorem badFramesAreDiscardedAndCounted : Obligations.BadFramesAreDiscardedAndCounted := by
  refine ⟨⟨fun c s hc h => exec_planFrame_of_discarded hc (h.imp_right ?plan), fun s => rfl⟩, fun s hs => ?loading,
    fun s hs => ⟨⟨?drive, ?sense⟩, fun tL tR l r h => ?odometry, fun f h => ?frame⟩⟩
  case plan =>
    rintro (⟨key, g, contents, rfl, hkey | ⟨n, rfl, hn⟩⟩ | ⟨key, rfl, hkey⟩)
    · have : key.onMap = false := by simpa using mt TileKey.onMap_iff.mp (not_not.mpr hkey)
      simp [Instr.wellFormed, this]
    · simp [Instr.wellFormed, TileContents.wellFormed, hn]
    · have : key.onMap = false := by simpa using mt TileKey.onMap_iff.mp (not_not.mpr hkey)
      simp [Instr.wellFormed, this]
  case loading =>
    exact ⟨fun _ _ _ _ => congrArg Host.Outcome.next (takeLine_of_loading hs _),
      fun _ _ => congrArg Host.Outcome.next (takeLine_of_loading hs _),
      fun _ => congrArg Host.Outcome.next (takeLine_of_loading hs _), fun _ => congrArg Host.Outcome.next (if_pos hs)⟩
  case drive => exact congrArg Host.Outcome.next (if_neg hs)
  case sense => exact congrArg Host.Outcome.next (if_neg hs)
  case odometry =>
    have hbad : (Instr.odometryReply tL tR l r).wellFormed = false := by
      rw [← Bool.not_eq_true, odometryReply_wellFormed_iff]
      omega
    exact congrArg Host.Outcome.next (takeLine_of_bad hs hbad _)
  case frame =>
    have hbad : (Instr.senseFrame f).wellFormed = false := by
      rcases h with ⟨b, hb, hcode⟩ | ⟨id, hid, hn⟩ | ⟨hid, hcontact⟩
      · simp [Instr.wellFormed, SenseFrame.wellFormed, hb, hcode]
      · simp [Instr.wellFormed, SenseFrame.wellFormed, optionally, hid, hn]
      · obtain ⟨id, hid⟩ := Option.isSome_iff_exists.mp hid
        simp [Instr.wellFormed, SenseFrame.wellFormed, hid, hcontact]
    exact congrArg Host.Outcome.next (takeLine_of_bad hs hbad _)

end Sys2Proof.Machine
end

section
/-! Segments, Start and mode commands as they arrive, and the loads of the response table, the learn table and the dock record
(R7, R8, R9, R14, R79, R80, R105, R106, R107, R108). -/

namespace Sys2Proof.Machine

/-! ## Segments (R79, R80) -/

theorem brushAction_eq (n : Nat) :
    brushAction n = if n = 0 then .run else if n = 1 then .low else if n = 2 then .lift else .stop := by
  unfold brushAction
  split <;> simp_all

/-- Settles O8. -/
theorem segmentIsClampedAndQueued : Obligations.SegmentIsClampedAndQueued := by
  intro vL vR kind limit brush tag s hs hwf
  refine ⟨segmentRecord vL vR kind limit brush tag, rfl, rfl, rfl, rfl, ?_, ?_, ?_,
    congrArg Host.Outcome.next (takePlan_of_taken hs hwf _)⟩
  · rintro rfl
    rfl
  · rintro rfl
    rfl
  · exact congrArg (brush.map ·) (funext brushAction_eq)

/-! ## Start (R105, R106) -/

theorem Watch.isUp_iff {w : Watch} : w.isUp = true ↔ ∃ t, w = .up t := by
  cases w <;> simp [Watch.isUp]

theorem bothUp_iff {s : State} : bothUp s = true ↔ (∃ t, s.dli.watch = .up t) ∧ ∃ t, s.snp.watch = .up t := by
  simp [bothUp, Watch.isUp_iff]

theorem changeRun_run_of_idle {s : State} (h : s.rct.state = .idle) : changeRun .run s = { s with
    rct := { s.rct with state := .run, pendingStep := false }
    rfx := { s.rfx with phase := .none, armed := allArmed } } := by
  simp [changeRun_eq, h, RunState.keepsSuspicion, RunState.moving, RunState.docking]

theorem takeStart_of_ready {s : State} (hi : s.rct.state = .idle) (hu : bothUp s = true) :
    takeStart s = changeRun .run s := if_pos (by simp [hi, hu])

theorem takeStart_of_not_ready {s : State} (h : ¬(s.rct.state = .idle ∧ bothUp s = true)) :
    takeStart s = raise .commandRefused (.refused .start) s := if_neg (by simpa using h)

theorem exec_start {s : State} (hs : s.rct.state ≠ .loading) : exec .start s = .next (arbitrate (takeStart s)) :=
  congrArg Host.Outcome.next (takePlan_of_taken hs rfl _)

/-- Settles O9. -/
theorem startEntersRunOrIsRefused : Obligations.StartEntersRunOrIsRefused := by
  refine fun s => ⟨fun hidle hdrive hsense => ?_, fun hs hrefused => ?_⟩
  · rw [exec_start (by simp [hidle]), takeStart_of_ready hidle (bothUp_iff.mpr ⟨hdrive, hsense⟩), changeRun_run_of_idle hidle]
  · rw [exec_start hs, takeStart_of_not_ready]
    rintro ⟨hidle, hup⟩
    obtain ⟨⟨t, ht⟩, u, hu⟩ := bothUp_iff.mp hup
    rcases hrefused with h | h | h
    · exact h hidle
    · exact h t ht
    · exact h u hu

/-! ## Mode commands (R107, R108) -/

theorem modeCommand_factor_eq (kind : ModeKind) (factor : Nat) :
    (modeCommand kind factor).factor = if kind = .creep then max 2 (min 8 factor) else 0 := by
  cases kind <;> rfl

theorem modeCommand_kind (kind : ModeKind) (factor : Nat) : (modeCommand kind factor).kind = kind := by
  cases kind <;> rfl

/-- Settles O10. -/
theorem modeCommandIsQueuedOrLost : Obligations.ModeCommandIsQueuedOrLost := fun kind factor s hs hf =>
  ⟨modeCommand kind factor, modeCommand_kind kind factor, modeCommand_factor_eq kind factor,
    congrArg Host.Outcome.next (takePlan_of_taken (i := .mode kind factor) hs (by simpa [Instr.wellFormed, fits8] using hf) _)⟩

/-! ## The response table (R8) -/

theorem trustOf_eq (n : Nat) : trustOf n = if n = 1 then .confirm else .immediate := by
  unfold trustOf
  split <;> simp_all

theorem entryRecord_eq (e : ResponseEntry) : entryRecord e =
    { blocking := decide (e.blocking ≠ 0)
      edge := decide (e.edge ≠ 0)
      floorCap := min 500 e.floorCap
      brush := if e.brush = 0 then .run else if e.brush = 1 then .low else if e.brush = 2 then .lift else .stop
      trust := if e.trust = 1 then .confirm else .immediate } := by
  simp [entryRecord, brushAction_eq, trustOf_eq, bne, Bool.beq_eq_decide_eq]

theorem applyEntry_getElem (t : Vector ResponseRecord 16) (e : ResponseEntry) (c : CellClass) :
    (applyEntry t e)[c] = if e.record = c.val ∧ e.record < 15 then entryRecord e else t[c] := by
  unfold applyEntry
  by_cases h : e.record < 15 <;> simp [h, Vector.getElem_set]

/-- A record that no stored entry names stands as it stood. -/
theorem foldl_applyEntry_of_unnamed {c : CellClass} (entries : List ResponseEntry) (t : Vector ResponseRecord 16)
    (h : ∀ e ∈ entries, ¬(e.record = c.val ∧ e.record < 15)) : (entries.foldl applyEntry t)[c] = t[c] := by
  induction entries generalizing t with
  | nil => rfl
  | cons e rest ih =>
    rw [List.foldl_cons, ih _ fun e' he' => h e' (List.mem_cons_of_mem _ he'), applyEntry_getElem,
      if_neg (h e List.mem_cons_self)]

/-- The last entry that names a record is the one stored. -/
theorem foldl_applyEntry_of_last {before after : List ResponseEntry} {e : ResponseEntry} {c : CellClass}
    (t : Vector ResponseRecord 16) (hc : c.val = e.record) (he : e.record < 15) (h : ∀ later ∈ after, later.record ≠ e.record) :
    ((before ++ e :: after).foldl applyEntry t)[c] = entryRecord e := by
  rw [List.foldl_append, List.foldl_cons, foldl_applyEntry_of_unnamed after _ fun e' he' hn => h e' he' (hn.1.trans hc),
    applyEntry_getElem, if_pos ⟨hc.symm, he⟩]

theorem entryMoved_iff {e : ResponseEntry} : entryMoved e = true ↔
    15 ≤ e.record ∨ 500 < e.floorCap ∨ 1 < e.blocking ∨ 1 < e.edge ∨ 3 < e.brush ∨ 1 < e.trust := by
  simp [entryMoved, entrySkipped, or_assoc]

theorem answerOf_any_of_moved {α : Type} {p : α → Bool} {l : List α} (h : ∃ e ∈ l, p e = true) :
    answerOf (l.any p) = .clamped := answerOf_eq_clamped_iff.mpr (List.any_eq_true.mpr h)

theorem answerOf_any_of_none {α : Type} {p : α → Bool} {l : List α} (h : ∀ e ∈ l, ¬p e = true) :
    answerOf (l.any p) = .accepted := answerOf_eq_accepted_iff.mpr (List.any_eq_false.mpr h)

/-- Settles O15. -/
theorem responseLoadStoresLastEntries : Obligations.ResponseLoadStoresLastEntries := by
  intro entries s hs hwf
  refine ⟨entries.foldl applyEntry s.tbs.response, answerOf (entries.any entryMoved),
    congrArg Host.Outcome.next (takePlan_of_taken hs hwf _), ?fifteen, fun c h => ?unnamed,
    fun before e after he hrec hlater c hc => ?last, fun ⟨e, he, hmoved⟩ => ?clamped, fun h => ?accepted⟩
  case fifteen => exact foldl_applyEntry_of_unnamed (c := 15) entries _ fun e _ h => absurd h.2 (by omega)
  case unnamed => exact foldl_applyEntry_of_unnamed entries _ fun e he hn => h e he hn.1
  case last => rw [he, foldl_applyEntry_of_last _ hc hrec hlater, entryRecord_eq]
  case clamped => exact answerOf_any_of_moved ⟨e, he, entryMoved_iff.mpr hmoved⟩
  case accepted =>
    refine answerOf_any_of_none fun e he hmoved => ?_
    have hkept := h e he
    have := entryMoved_iff.mp hmoved
    omega

/-! ## The learn table (R9) -/

theorem learnClass_map_val (cls : Nat) : (learnClass cls).map Fin.val = if cls ≤ 14 then some cls else none := by
  unfold learnClass
  by_cases h : cls < 15
  · simp [h, Nat.le_of_lt_succ h]
  · simp [h, show ¬cls ≤ 14 by omega]

theorem applyLearn_entry (t : LearnTable) (e : LearnEntry) (k : MarkKind) :
    (applyLearn t e).entry k = if e.kind = markCode k then learnClass e.cls else t.entry k := by
  unfold applyLearn
  split <;> rename_i h <;> cases k <;> simp_all [LearnTable.entry, markCode]

theorem foldl_applyLearn_of_unnamed {k : MarkKind} (entries : List LearnEntry) (t : LearnTable)
    (h : ∀ e ∈ entries, e.kind ≠ markCode k) : (entries.foldl applyLearn t).entry k = t.entry k := by
  induction entries generalizing t with
  | nil => rfl
  | cons e rest ih =>
    rw [List.foldl_cons, ih _ fun e' he' => h e' (List.mem_cons_of_mem _ he'), applyLearn_entry,
      if_neg (h e List.mem_cons_self)]

theorem foldl_applyLearn_of_last {before after : List LearnEntry} {e : LearnEntry} {k : MarkKind} (t : LearnTable)
    (hk : markCode k = e.kind) (h : ∀ later ∈ after, later.kind ≠ e.kind) :
    ((before ++ e :: after).foldl applyLearn t).entry k = learnClass e.cls := by
  rw [List.foldl_append, List.foldl_cons, foldl_applyLearn_of_unnamed after _ fun e' he' hn => h e' he' (hn.trans hk),
    applyLearn_entry, if_pos hk.symm]

theorem learnMoved_iff {e : LearnEntry} : learnMoved e = true ↔ 4 < e.kind ∨ (15 ≤ e.cls ∧ e.cls ≠ 255) := by
  simp [learnMoved]

/-- Settles O16. -/
theorem learnLoadStoresLastEntries : Obligations.LearnLoadStoresLastEntries := by
  intro entries s hs hwf
  refine ⟨entries.foldl applyLearn s.tbs.learn, answerOf (entries.any learnMoved),
    congrArg Host.Outcome.next (takePlan_of_taken hs hwf _), fun k h => foldl_applyLearn_of_unnamed entries _ h,
    fun before e after he hlater k hk => ?last, fun ⟨e, he, hmoved⟩ => ?clamped, fun h => ?accepted⟩
  case last => rw [he, foldl_applyLearn_of_last _ hk hlater, learnClass_map_val]
  case clamped =>
    refine answerOf_any_of_moved ⟨e, he, learnMoved_iff.mpr (hmoved.imp_right fun ⟨hlo, hhi⟩ => ⟨hlo, ?_⟩)⟩
    omega
  case accepted =>
    refine answerOf_any_of_none fun e he hmoved => ?_
    have hkept := h e he
    have := learnMoved_iff.mp hmoved
    omega

/-! ## The dock record (R14) -/

theorem answerOf_dockMoved (level x y heading code : Nat) : answerOf (dockMoved level x y heading code) =
    if 3 < level ∨ 51199 < x ∨ 51199 < y ∨ 4095 < heading ∨ 15 < code then .clamped else .accepted := by
  simp [answerOf, dockMoved, or_assoc]

/-- Settles O19. -/
theorem dockLoadIsClamped : Obligations.DockLoadIsClamped := by
  intro level x y heading code s hs hl hx hy hh hc
  rw [← answerOf_dockMoved]
  exact congrArg Host.Outcome.next (takePlan_of_taken (i := .loadDock level x y heading code) hs
    (by simp [Instr.wellFormed, fits16, hl, hx, hy, hh, hc]) _)

end Sys2Proof.Machine
end

section
/-! Tile requests, tile arrivals, the merged tile and the age lookup (R27, R39, R40, R43, R44, R45, R50, R51, R52, R53, R62, R68,
R73, R74, R75). -/

namespace Sys2Proof.Machine

/-! ## The slot that a request takes (R40, R44) -/

theorem slotNumbers_pairwise : slotNumbers.Pairwise (· < ·) := by decide

theorem find?_eq_some_of_first {α : Type} {p : α → Bool} {l before after : List α} {x : α} (hl : l = before ++ x :: after)
    (hx : p x = true) (hb : ∀ y ∈ before, ¬p y = true) : l.find? p = some x :=
  List.find?_eq_some_iff_append.mpr ⟨hx, before, after, hl, fun y hy => by simpa using hb y hy⟩

theorem Slot.isEmpty_iff {x : Slot} : x.isEmpty = true ↔ x = .empty := by
  cases x <;> simp [Slot.isEmpty]

theorem TileWindow.lowestEmpty_eq_none {w : TileWindow} : w.lowestEmpty = none ↔ ∀ i, w.slot i ≠ .empty := by
  simp [lowestEmpty, mem_slotNumbers, ← Slot.isEmpty_iff]

theorem TileWindow.lowestEmpty_eq_some {w : TileWindow} {i : SlotNo} (hi : w.slot i = .empty)
    (hlow : ∀ j, j < i → w.slot j ≠ .empty) : w.lowestEmpty = some i := by
  obtain ⟨before, after, hl⟩ := List.append_of_mem (mem_slotNumbers i)
  refine find?_eq_some_of_first hl (Slot.isEmpty_iff.mpr hi) fun j hj => ?_
  have hlt : j < i := by
    have hsorted := slotNumbers_pairwise
    rw [hl] at hsorted
    exact (List.pairwise_append.mp hsorted).2.2 j hj i List.mem_cons_self
  simpa [Slot.isEmpty_iff] using hlow j hlt

/-- Among the sixteen columns or rows of a tile one lies within 2 of a given one. -/
theorem nearSpan_iff {a c : Nat} : nearSpan (16 * a) c = true ↔ ∃ n, (n ≤ c + 2 ∧ c ≤ n + 2) ∧ n / 16 = a := by
  simp only [nearSpan, Bool.and_eq_true, decide_eq_true_eq]
  constructor
  · rintro ⟨hlo, hhi⟩
    exact ⟨max (16 * a) (min c (16 * a + 15)), by omega, by omega⟩
  · rintro ⟨n, hn, rfl⟩
    omega

theorem pinned_iff {p : Pose} {k : TileKey} : pinned p k = true ↔ Near p k := by
  simp only [pinned, Bool.and_eq_true, beq_iff_eq, nearSpan_iff, and_assoc]
  exact and_congr_right fun _ => ⟨fun ⟨⟨c, hc, hc', hck⟩, r, hr, hr', hrk⟩ => ⟨c, r, ⟨hc, hc'⟩, ⟨hr, hr'⟩, hck, hrk⟩,
    fun ⟨c, r, ⟨hc, hc'⟩, ⟨hr, hr'⟩, hck, hrk⟩ => ⟨⟨c, hc, hc', hck⟩, r, hr, hr', hrk⟩⟩

theorem evictable_iff {p : Pose} {x : Slot} : evictable p x = true ↔ ∃ t, x = .clean t ∧ ¬Near p t.key := by
  cases x <;> simp [evictable, ← pinned_iff]

section
variable {k : TileKey} {s : State} {i : SlotNo}

theorem request_of_held (h : (∃ i, (s.twn.slot i).key? = some k) ∨ 6 ≤ s.twn.pendingRequests) : request k s = s := by
  refine if_pos (Bool.or_eq_true_iff.mpr (h.imp (fun ⟨i, hi⟩ => ?_) decide_eq_true))
  rw [Option.isSome_iff_ne_none]
  exact fun hf => TileWindow.find_eq_none.mp hf i hi

theorem request_of_slot (hk : ∀ i, (s.twn.slot i).key? ≠ some k) (hp : s.twn.pendingRequests < 6)
    (hi : s.twn.slotToTake s.pot.pose = some i) : request k s = openRequest i k s := by
  rw [request, if_neg (by simp [TileWindow.find_eq_none.mpr hk, hp]), hi]

theorem request_of_no_slot (hk : ∀ i, (s.twn.slot i).key? ≠ some k) (hp : s.twn.pendingRequests < 6)
    (hn : s.twn.slotToTake s.pot.pose = none) : request k s = raise .windowFull (.key k) s := by
  rw [request, if_neg (by simp [TileWindow.find_eq_none.mpr hk, hp]), hn]

theorem slotToTake_of_empty (hi : s.twn.slot i = .empty) (hlow : ∀ j, j < i → s.twn.slot j ≠ .empty) :
    s.twn.slotToTake s.pot.pose = some i := by
  rw [TileWindow.slotToTake, TileWindow.lowestEmpty_eq_some hi hlow]

theorem slotToTake_of_full (h : ∀ i, s.twn.slot i ≠ .empty) : s.twn.slotToTake s.pot.pose = s.twn.victim s.pot.pose := by
  rw [TileWindow.slotToTake, TileWindow.lowestEmpty_eq_none.mpr h]

end

/-- Settles O48. -/
theorem requestTakesAnEmptyOrUnpinnedSlot : Obligations.RequestTakesAnEmptyOrUnpinnedSlot := by
  intro k s
  refine ⟨request_of_held, fun hk hp => ?_⟩
  refine ⟨fun i hi hlow => request_of_slot hk hp (slotToTake_of_empty hi hlow),
    fun hfull => ⟨fun before i after hr hi hb => request_of_slot hk hp ?_, fun h => request_of_no_slot hk hp ?_⟩⟩
  · rw [slotToTake_of_full hfull]
    exact find?_eq_some_of_first hr (evictable_iff.mpr hi) fun j hj => mt evictable_iff.mp (hb j hj)
  · rw [slotToTake_of_full hfull]
    exact List.find?_eq_none.mpr fun i hi => mt evictable_iff.mp (h i hi)

/-! ## Tile arrivals (R50 to R53) -/

/-- The words of R50 leave one tile. -/
theorem ArrivesAs.eq_tileOf {t : Tile} {key : TileKey} {generation : Nat} {contents : TileContents}
    (h : ArrivesAs t key generation contents) (hc : ∀ c, contents = .uniform c → c ≤ 15) :
    t = tileOf key generation contents := by
  obtain ⟨hkey, hgen, hcells⟩ := h
  suffices t.cells = (tileOf key generation contents).cells by
    cases t
    simp_all [tileOf]
  ext n hn
  have := hcells ⟨n, hn⟩
  cases contents with
  | full classes => exact congrArg Fin.val this
  | uniform c =>
    have hc := hc c rfl
    simp only [Fin.getElem_fin] at this
    simp [tileOf, this, Fin.ofNat, Nat.mod_eq_of_lt (show c < 16 by omega)]

theorem tile_wellFormed {key : TileKey} {generation : Nat} {contents : TileContents} (hkey : ¬OffMap key)
    (hg : generation ≤ 255) (hc : ∀ c, contents = .uniform c → c ≤ 15) :
    (Instr.tile key generation contents).wellFormed = true := by
  have : contents.wellFormed = true := by
    cases contents with
    | full classes => rfl
    | uniform c => exact decide_eq_true (hc c rfl)
  simp [Instr.wellFormed, fits8, TileKey.onMap_iff.mpr hkey, hg, this]

section
variable {s : State} {t : Tile} {key : TileKey} {generation : Nat} {contents : TileContents} {i : SlotNo}

theorem exec_tile (hs : s.rct.state ≠ .loading) (hkey : ¬OffMap key) (hg : generation ≤ 255)
    (hc : ∀ c, contents = .uniform c → c ≤ 15) (ht : ArrivesAs t key generation contents) :
    exec (.tile key generation contents) s = .next (arbitrate (takeTile t s)) := by
  rw [ht.eq_tileOf hc]
  exact congrArg Host.Outcome.next (takePlan_of_taken hs (tile_wellFormed hkey hg hc) _)

theorem takeTile_of_other_level (h : t.key.level ≠ s.pot.pose.level) :
    takeTile t s = { s with twn := s.twn.discardArrival } := if_neg h

theorem takeTile_of_slot (hlaw : WindowLaw s) (hi : (s.twn.slot i).key? = some t.key) : takeTile t s = takeAtSlot i t s := by
  rw [takeTile, if_pos (hlaw.2 i _ hi), hlaw.find_eq hi]

theorem takeTile_of_no_slot (hl : t.key.level = s.pot.pose.level) (hn : ∀ i, (s.twn.slot i).key? ≠ some t.key) :
    takeTile t s = takeUnsolicited t s := by
  rw [takeTile, if_pos hl, TileWindow.find_eq_none.mpr hn]

theorem takeAtSlot_of_pending {k : TileKey} {at_ : Time} (h : s.twn.slot i = .pending k at_) : takeAtSlot i t s = { s with
    twn := s.twn.occupy i (.clean t), pli := { s.pli with requests := s.pli.requests.filter (fun r => r ≠ k) } } := by
  rw [← filter_bne_eq]
  simp only [takeAtSlot, h]
  rfl

theorem takeAtSlot_of_clean {held : Tile} (h : s.twn.slot i = .clean held) :
    takeAtSlot i t s = { s with twn := s.twn.occupy i (.clean t) } := by
  simp only [takeAtSlot, h]

theorem takeAtSlot_of_marked {held : Tile} {m : Marks} (h : s.twn.slot i = .marked held m) :
    takeAtSlot i t s = refuseMarked .tile held s := by
  simp only [takeAtSlot, h]

theorem takeAtSlot_of_stale {held : Tile} {m : Marks} (h : s.twn.slot i = .sent held m) (hg : t.generation = held.generation) :
    takeAtSlot i t s = refuseStale held s := by
  simp only [takeAtSlot, h, hg, if_true]

theorem takeAtSlot_of_merged {held : Tile} {m : Marks} (h : s.twn.slot i = .sent held m) (hg : t.generation ≠ held.generation) :
    takeAtSlot i t s = mergeTile i t m s := by
  simp only [takeAtSlot, h, hg, if_false]

end

/-- Settles O11. -/
theorem tileIsStoredDiscardedOrRefused : Obligations.TileIsStoredDiscardedOrRefused := by
  refine ⟨fun key generation contents t s hs hkey hg hc hlaw ht => ?_, fun generation contents i held m s hs hkey hg hc hlaw => ?_⟩
  · have hk := ht.1
    rw [exec_tile hs hkey hg hc ht]
    refine ⟨fun hl => ?_, fun i at_ hi => ?_, fun i held hi hheld => ?_,
      fun hl hn => ⟨fun i hi hlow => ?_, fun hfull => ?_⟩⟩
    · rw [takeTile_of_other_level (hk ▸ hl)]
      rfl
    · rw [takeTile_of_slot hlaw (by rw [hi, hk]; rfl), takeAtSlot_of_pending hi]
      rfl
    · rw [takeTile_of_slot hlaw (by rw [hi, hk, ← hheld]; rfl), takeAtSlot_of_clean hi]
      rfl
    · rw [takeTile_of_no_slot (hk ▸ hl) (hk ▸ hn), takeUnsolicited, TileWindow.lowestEmpty_eq_some hi hlow]
      rfl
    · rw [takeTile_of_no_slot (hk ▸ hl) (hk ▸ hn), takeUnsolicited, TileWindow.lowestEmpty_eq_none.mpr hfull]
      rfl
  · have ht : ArrivesAs (tileOf held.key generation contents) held.key generation contents := by
      refine ⟨rfl, rfl, fun n => ?_⟩
      cases contents with
      | full classes => rfl
      | uniform c => simp [tileOf, Fin.ofNat, Nat.mod_eq_of_lt (show c < 16 from Nat.lt_succ_of_le (hc c rfl))]
    rw [exec_tile hs hkey hg hc ht]
    refine ⟨fun hi => ?_, fun hi hgen => ?_⟩
    · rw [takeTile_of_slot hlaw (by rw [hi]; rfl), takeAtSlot_of_marked hi, refuseMarked_eq]
    · rw [takeTile_of_slot hlaw (by rw [hi]; rfl), takeAtSlot_of_stale hi hgen, refuseStale, queueRetry_eq]

/-! ## The merged tile (R74, R75) -/

/-- A record is kept by the merge: it is unsent and may be written over the new contents (R74). -/
def keptRecord (response : Vector ResponseRecord 16) (cells : Cells) (r : MarkRecord) : Bool :=
  !r.sent && mayMark response cells[r.cell] r.cls

section
variable {response : Vector ResponseRecord 16}

theorem reapply_cons_of_kept {r : MarkRecord} {cells : Cells} (h : keptRecord response cells r = true)
    (rest : List MarkRecord) : reapply response (r :: rest) cells =
      (r :: (reapply response rest (cells.set r.cell r.cls)).1, (reapply response rest (cells.set r.cell r.cls)).2) := if_pos h

theorem reapply_cons_of_not_kept {r : MarkRecord} {cells : Cells} (h : ¬keptRecord response cells r = true)
    (rest : List MarkRecord) : reapply response (r :: rest) cells = reapply response rest cells := if_neg h

/-- The unsent records stand on distinct cells (R64). -/
def DistinctCells (records : List MarkRecord) : Prop := ((records.filter fun r => r.sent == false).map MarkRecord.cell).Nodup

theorem distinctCells_cons {r : MarkRecord} {rest : List MarkRecord} (h : DistinctCells (r :: rest)) :
    DistinctCells rest ∧ (r.sent = false → ∀ q ∈ rest, q.sent = false → q.cell ≠ r.cell) := by
  unfold DistinctCells at h ⊢
  cases hs : r.sent with
  | true => simpa [hs] using h
  | false =>
    rw [List.filter_cons_of_pos (by simp [hs]), List.map_cons, List.nodup_cons] at h
    refine ⟨h.2, fun _ q hq hqs hqc => h.1 (List.mem_map.mpr ⟨q, List.mem_filter.mpr ⟨hq, by simp [hqs]⟩, hqc⟩)⟩

/-- On distinct cells the records worked through do not meet: each is judged by the contents as they arrived. -/
theorem reapply_fst (records : List MarkRecord) (cells : Cells) (h : DistinctCells records) :
    (reapply response records cells).1 = records.filter (keptRecord response cells) := by
  induction records generalizing cells with
  | nil => rfl
  | cons r rest ih =>
    obtain ⟨hrest, hcells⟩ := distinctCells_cons h
    by_cases hr : keptRecord response cells r = true
    · rw [reapply_cons_of_kept hr, ih _ hrest, List.filter_cons_of_pos hr]
      refine congrArg (r :: ·) (List.filter_congr fun q hq => ?_)
      have hunsent : r.sent = false := by simpa using (Bool.and_eq_true_iff.mp hr).1
      cases hqs : q.sent with
      | true => simp [keptRecord, hqs]
      | false =>
        have : (cells.set r.cell r.cls)[q.cell] = cells[q.cell] := by
          simp [Fin.val_inj, (hcells hunsent q hq hqs).symm]
        simp [keptRecord, this]
    · rw [reapply_cons_of_not_kept hr, ih _ hrest, List.filter_cons_of_neg hr]

theorem reapply_cells_of_other (records : List MarkRecord) (cells : Cells) {n : CellIndex}
    (h : ∀ r ∈ (reapply response records cells).1, r.cell ≠ n) : (reapply response records cells).2[n] = cells[n] := by
  induction records generalizing cells with
  | nil => rfl
  | cons r rest ih =>
    by_cases hr : keptRecord response cells r = true
    · rw [reapply_cons_of_kept hr] at h ⊢
      rw [ih _ fun q hq => h q (List.mem_cons_of_mem _ hq)]
      simp [Fin.val_inj, h r List.mem_cons_self]
    · rw [reapply_cons_of_not_kept hr] at h ⊢
      exact ih _ h

theorem reapply_cells_of_kept (records : List MarkRecord) (cells : Cells) (h : DistinctCells records) :
    ∀ r ∈ (reapply response records cells).1, (reapply response records cells).2[r.cell] = r.cls := by
  induction records generalizing cells with
  | nil => simp [reapply]
  | cons r rest ih =>
    obtain ⟨hrest, hcells⟩ := distinctCells_cons h
    by_cases hr : keptRecord response cells r = true
    · rw [reapply_cons_of_kept hr]
      intro q hq
      rcases List.mem_cons.mp hq with rfl | hq
      · have hunsent : q.sent = false := by simpa using (Bool.and_eq_true_iff.mp hr).1
        refine (reapply_cells_of_other rest _ fun p hp => ?_).trans (by simp)
        rw [reapply_fst rest _ hrest, List.mem_filter] at hp
        exact hcells hunsent p hp.1 (by simpa using (Bool.and_eq_true_iff.mp hp.2).1)
      · exact ih _ hrest q hq
    · rw [reapply_cons_of_not_kept hr]
      exact ih _ hrest

end

/-- Settles O12. -/
theorem mergedTileReappliesUnsentMarks : Obligations.MergedTileReappliesUnsentMarks := by
  intro generation contents i held t m s hs hkey hg hc hlaw hi hgen ht hdistinct
  have hkept : (reapply s.tbs.response m.records t.cells).1 = m.records.filter (fun r =>
      !r.sent && !s.tbs.response[t.cells[r.cell]].blocking && t.cells[r.cell] != r.cls) := by
    rw [reapply_fst _ _ hdistinct]
    exact List.filter_congr fun r _ => (Bool.and_assoc _ _ _).symm
  have hexec : exec (.tile held.key generation contents) s = .next (arbitrate (mergeTile i t m s)) := by
    rw [exec_tile hs hkey hg hc ht, takeTile_of_slot hlaw (by rw [hi, ht.1]; rfl),
      takeAtSlot_of_merged hi (by rw [ht.2.1]; exact hgen)]
  refine ⟨(reapply s.tbs.response m.records t.cells).1, hkept, fun hnone => ?_, fun hsome => ?_⟩
  · rw [hexec, mergeTile, if_pos (by simp [hnone])]
    rfl
  · refine ⟨{ t with cells := (reapply s.tbs.response m.records t.cells).2 }, ht.1, ht.2.1, reapply_cells_of_kept _ _ hdistinct,
      fun n => reapply_cells_of_other _ _, ?_⟩
    rw [hexec, mergeTile, if_neg (by simpa using hsome), becomeMarked, offerReport_eq]
    simp only [ht.1]
    rfl

/-! ## The age lookup (R27) -/

/-- The entry was made before the arrival, and at least `age` units before it (R27). -/
def OldEnough (arrival : Time) (age : Nat) (e : HistoryEntry) : Prop :=
  elapsed arrival e.stamp < 2 ^ 31 ∧ age ≤ elapsed arrival e.stamp

section
variable {arrival : Time} {age : Nat}

theorem betterEntry_of_not_oldEnough {e : HistoryEntry} (h : ¬OldEnough arrival age e) (best : Option HistoryEntry) :
    betterEntry arrival age best e = best := if_neg (by simpa only [OldEnough, Bool.and_eq_true, decide_eq_true_eq] using h)

theorem betterEntry_of_oldEnough {e : HistoryEntry} (h : OldEnough arrival age e) (best : Option HistoryEntry) :
    betterEntry arrival age best e = match best with
      | none => some e
      | some b => if elapsed arrival e.stamp ≤ elapsed arrival b.stamp then some e else some b :=
  if_pos (by simpa only [OldEnough, Bool.and_eq_true, decide_eq_true_eq] using h)

/-- What holds of the best so far and of every entry that is old enough holds of the best at the end. -/
theorem foldl_betterEntry_mem {P : HistoryEntry → Prop} (l : List HistoryEntry) (best : Option HistoryEntry)
    (hbest : ∀ b, best = some b → P b) (hl : ∀ e ∈ l, OldEnough arrival age e → P e) :
    ∀ b, l.foldl (betterEntry arrival age) best = some b → P b := by
  induction l generalizing best with
  | nil => exact hbest
  | cons e rest ih =>
    refine ih _ (fun b hb => ?_) fun e' he' => hl e' (List.mem_cons_of_mem _ he')
    by_cases h : OldEnough arrival age e
    · have he := hl e List.mem_cons_self h
      rw [betterEntry_of_oldEnough h] at hb
      cases best with
      | none => cases hb; exact he
      | some c =>
        dsimp only at hb
        split at hb <;> cases hb
        · exact he
        · exact hbest _ rfl
    · rw [betterEntry_of_not_oldEnough h] at hb
      exact hbest b hb

/-- The best entry stays while every later one is older. -/
theorem foldl_betterEntry_of_older {e : HistoryEntry} (l : List HistoryEntry)
    (h : ∀ b ∈ l, OldEnough arrival age b → elapsed arrival e.stamp < elapsed arrival b.stamp) :
    l.foldl (betterEntry arrival age) (some e) = some e := by
  induction l with
  | nil => rfl
  | cons b rest ih =>
    have hb : betterEntry arrival age (some e) b = some e := by
      by_cases hold : OldEnough arrival age b
      · rw [betterEntry_of_oldEnough hold]
        exact if_neg (Nat.not_le.mpr (h b List.mem_cons_self hold))
      · exact betterEntry_of_not_oldEnough hold _
    rw [List.foldl_cons, hb]
    exact ih fun b' hb' => h b' (List.mem_cons_of_mem _ hb')

theorem foldl_betterEntry_of_none (l : List HistoryEntry) (h : ∀ e ∈ l, ¬OldEnough arrival age e) :
    l.foldl (betterEntry arrival age) none = none := by
  by_contra hne
  obtain ⟨b, hb⟩ := Option.ne_none_iff_exists'.mp hne
  exact foldl_betterEntry_mem (P := fun _ => False) l none (fun _ h => by cases h) (fun e he hold => h e he hold) b hb

/-- The newest of the entries that are old enough, the later of equals. -/
theorem foldl_betterEntry_of_newest {before after : List HistoryEntry} {e : HistoryEntry} (he : OldEnough arrival age e)
    (hb : ∀ b ∈ before, OldEnough arrival age b → elapsed arrival e.stamp ≤ elapsed arrival b.stamp)
    (ha : ∀ b ∈ after, OldEnough arrival age b → elapsed arrival e.stamp < elapsed arrival b.stamp) :
    (before ++ e :: after).foldl (betterEntry arrival age) none = some e := by
  have hmid : betterEntry arrival age (before.foldl (betterEntry arrival age) none) e = some e := by
    rw [betterEntry_of_oldEnough he]
    cases hbest : before.foldl (betterEntry arrival age) none with
    | none => rfl
    | some b =>
      exact if_pos (foldl_betterEntry_mem (P := fun b => elapsed arrival e.stamp ≤ elapsed arrival b.stamp) before none
        (fun _ h => by cases h) hb b hbest)
  rw [List.foldl_append, List.foldl_cons, hmid, foldl_betterEntry_of_older after ha]

end

/-- Settles O49. -/
theorem ageLookupFindsTheNewestOldEnough : Obligations.AgeLookupFindsTheNewestOldEnough := by
  refine fun p arrival age => ⟨fun before e after hp he hb ha => ?_, fun first rest hp hnone => ?_, fun hp => ?_⟩
  · rw [ageLookup, hp, foldl_betterEntry_of_newest he hb ha]
    rfl
  · rw [ageLookup, foldl_betterEntry_of_none _ hnone, hp]
    rfl
  · rw [ageLookup, hp]
    rfl

end Sys2Proof.Machine
end

section
/-! Lookups and mark requests, the report at its turn, and the order of the transmitters (R28, R29, R41, R42, R60 to R72, R157,
R171, R172, R173). -/

namespace Sys2Proof.Machine

/-! ## Lookups (R41, R42) -/

section
variable {s : State} {c : Cell} {i : SlotNo}

/-- A lookup answers what the window holds (R41). -/
theorem lookup_fst (c : Cell) (s : State) : (lookup c s).1 = classAt s c := by
  unfold lookup classAt
  cases s.twn.find (c.key s.pot.pose.level) with
  | none => rfl
  | some i => cases h : (s.twn.slot i).tile? <;> simp [h]

theorem lookup_of_tile {t : Tile} (hlaw : WindowLaw s) (ht : (s.twn.slot i).tile? = some t)
    (hk : t.key = c.key s.pot.pose.level) : lookup c s = (some t.cells[c.index], { s with twn := s.twn.touch i }) := by
  have hf := hlaw.find_eq ((Slot.key_of_tile ht).trans (congrArg some hk))
  simp only [lookup, hf, ht]

theorem lookup_of_pending {at_ : Time} (hlaw : WindowLaw s) (hi : s.twn.slot i = .pending (c.key s.pot.pose.level) at_) :
    lookup c s = (none, s) := by
  have hf := hlaw.find_eq (i := i) (k := c.key s.pot.pose.level) (by rw [hi]; rfl)
  simp only [lookup, hf, hi, Slot.tile?]

theorem lookup_of_no_slot (h : ∀ i, (s.twn.slot i).key? ≠ some (c.key s.pot.pose.level)) :
    lookup c s = (none, if s.pot.pose.valid then request (c.key s.pot.pose.level) s else s) := by
  simp only [lookup, TileWindow.find_eq_none.mpr h]

end

/-! ## A located mark (R61, R62, R64, R65, R66) -/

theorem mayMark_iff {response : Vector ResponseRecord 16} {held cls : CellClass} :
    mayMark response held cls = true ↔ response[held].blocking = false ∧ held ≠ cls := by
  simp [mayMark]

section
variable {s : State} {c : Cell} {i : SlotNo} {kind : MarkKind} {cls : CellClass} {stale : Bool}

theorem placeMark_of_no_slot (hv : s.pot.pose.valid = true) (h : ∀ i, (s.twn.slot i).key? ≠ some (c.key s.pot.pose.level)) :
    placeMark kind cls c stale s = dropMark kind (c.key s.pot.pose.level) (request (c.key s.pot.pose.level) s) := by
  simp only [placeMark, lookup_of_no_slot h, hv, if_true]

theorem placeMark_of_pending {at_ : Time} (hlaw : WindowLaw s) (hi : s.twn.slot i = .pending (c.key s.pot.pose.level) at_) :
    placeMark kind cls c stale s = dropMark kind (c.key s.pot.pose.level) s := by
  simp only [placeMark, lookup_of_pending hlaw hi]

theorem placeMark_of_refused {t : Tile} (hlaw : WindowLaw s) (ht : (s.twn.slot i).tile? = some t)
    (hk : t.key = c.key s.pot.pose.level) (hm : ¬mayMark s.tbs.response t.cells[c.index] cls = true) :
    placeMark kind cls c stale s = { s with twn := s.twn.touch i } := by
  simp only [placeMark, lookup_of_tile hlaw ht hk, if_neg hm]

theorem placeMark_of_made {t : Tile} (hlaw : WindowLaw s) (ht : (s.twn.slot i).tile? = some t)
    (hk : t.key = c.key s.pot.pose.level) (hm : mayMark s.tbs.response t.cells[c.index] cls = true) :
    placeMark kind cls c stale s =
      recordMark i { cell := c.index, cls := cls, kind := kind, stale := stale, sent := false }
        { s with twn := s.twn.touch i } := by
  have hf : (s.twn.touch i).find (c.key s.pot.pose.level) = some i :=
    hlaw.find_eq ((Slot.key_of_tile ht).trans (congrArg some hk))
  simp only [placeMark, lookup_of_tile hlaw ht hk, if_pos hm, hf]

end

section
variable {s : State} {i : SlotNo} {t : Tile} {m : Marks} {r : MarkRecord}

theorem recordMark_of_clean {key : TileKey} (h : s.twn.slot i = .clean t) (hk : t.key = key) : recordMark i r s = { s with
    twn := s.twn.put i (.marked (t.write r.cell r.cls) { records := [r], overflow := false })
    mru := { s.mru with markedOrder := s.mru.markedOrder ++ [i], reportQueue := offered key s.mru.reportQueue } } := by
  subst hk
  simp only [recordMark, h, becomeMarked, offerReport_eq]
  rfl

theorem recordMark_of_marked (h : s.twn.slot i = .marked t m) :
    recordMark i r s = { s with twn := s.twn.put i (.marked (t.write r.cell r.cls) (m.add r)) } := by
  simp only [recordMark, h]

theorem recordMark_of_sent (h : s.twn.slot i = .sent t m) :
    recordMark i r s = { s with twn := s.twn.put i (.sent (t.write r.cell r.cls) (m.addSent s.pot.timeCount r)) } := by
  simp only [recordMark, h]

theorem requestMark_of_idle {h : Hazard} {age : Nat} (hi : s.pot.pose.valid = false ∨ s.tbs.learn.entry h.kind = none) :
    requestMark h age s = s := by
  rcases requestMark_cases h age s with ⟨e, -⟩ | ⟨hv, cls, hcls, -⟩
  · exact e
  · simp [hv, hcls] at hi

theorem requestMark_of_learnt {h : Hazard} {age : Nat} {cls : CellClass} (hv : s.pot.pose.valid = true)
    (hcls : s.tbs.learn.entry h.kind = some cls) :
    requestMark h age s = placeMark h.kind cls (markPoint s age h).1 (markPoint s age h).2 s := by
  simp only [requestMark, hv, if_true, hcls]

end

/-- Settles O50. -/
theorem markRequestWritesAndRecords : Obligations.MarkRequestWritesAndRecords := by
  intro h age s hlaw c kind half offset base b x y cell key dropped
  have hkind : kind = h.kind := by cases h <;> rfl
  have hpoint : markPoint s age h = (cell, base.2) := by
    cases h with
    | cliff sensor => cases sensor <;> rfl
    | drop wheel => cases wheel <;> rfl
    | bump side => cases side <;> rfl
    | stall side => rfl
    | jam => rfl
  have hkey : key = cell.key s.pot.pose.level := rfl
  rw [hkind]
  refine ⟨requestMark_of_idle, ?_⟩
  intro cls hv hcls record
  rw [requestMark_of_learnt hv hcls, hpoint]
  refine ⟨fun hno => ?noSlot, fun i at_ hi => ?pending, ?slot⟩
  case noSlot =>
    rw [placeMark_of_no_slot hv hno, dropMark, (request_windowOnly _ s).mru]
    rfl
  case pending =>
    rw [placeMark_of_pending hlaw hi]
    rfl
  case slot =>
    intro i t ht htk touched
    refine ⟨fun hbad => ?refused, ?made⟩
    case refused =>
      rw [placeMark_of_refused hlaw ht htk]
      · rfl
      · rintro hm
        obtain ⟨hb, hne⟩ := mayMark_iff.mp hm
        exact hbad.elim (fun h => Bool.noConfusion (hb.symm.trans h)) hne
    case made =>
      intro hb hne written stored updated
      have hupdated (m : Marks) : updated m (m.add record) := by
        rcases m.add_cases record with ⟨⟨q, hq, hqc⟩, h⟩ | ⟨hq, hlen, h⟩ | ⟨hq, hlen, h⟩
        · exact ⟨fun _ => h, fun hno => absurd hqc (hno q hq), fun hno => absurd hqc (hno q hq)⟩
        · exact ⟨fun ⟨q, hq', hqc⟩ => absurd hqc (hq q hq'), fun _ _ => h, fun _ hlen' => absurd hlen (Nat.not_lt.mpr hlen')⟩
        · exact ⟨fun ⟨q, hq', hqc⟩ => absurd hqc (hq q hq'), fun _ hlen' => absurd hlen (Nat.not_le.mpr hlen'), fun _ _ => h⟩
      rw [placeMark_of_made hlaw ht htk (mayMark_iff.mpr ⟨hb, hne⟩)]
      refine ⟨fun hi => recordMark_of_clean hi htk, fun m hi => ⟨m.add record, hupdated m, recordMark_of_marked hi⟩, fun m hi => ?_⟩
      · intro meets
        refine ⟨m.addSent s.pot.timeCount record, ?_, ?_, recordMark_of_sent hi⟩
        all_goals
          intro hmeets
          rcases m.addSent_cases s.pot.timeCount record with ⟨hm, h⟩ | ⟨hm, h⟩
        · exact h
        · exact absurd (Marks.meetsFullReport_iff.mpr hmeets) (by simp [hm, record])
        · exact absurd (Marks.meetsFullReport_iff.mp hm) hmeets
        · exact h ▸ hupdated m

/-! ## The report at its turn (R69, R70, R71) -/

/-- The key that a slot offers as the report queue refills: its own, when it is MARKED and not queued (R69). -/
def refillOf (w : TileWindow) (queue : List TileKey) (i : SlotNo) : Option TileKey :=
  match w.slot i with
  | .marked t _ => if queue.contains t.key then none else some t.key
  | _ => none

theorem refillKey_eq (w : TileWindow) (order : List SlotNo) (queue : List TileKey) :
    refillKey w order queue = order.findSome? (refillOf w queue) := rfl

theorem refillOf_of_marked {w : TileWindow} {queue : List TileKey} {i : SlotNo} {t : Tile} {m : Marks}
    (hi : w.slot i = .marked t m) (hk : t.key ∉ queue) : refillOf w queue i = some t.key := by
  simp [refillOf, hi, hk]

theorem refillOf_eq_none {w : TileWindow} {queue : List TileKey} {i : SlotNo}
    (h : ¬∃ t m, w.slot i = .marked t m ∧ t.key ∉ queue) : refillOf w queue i = none := by
  cases hi : w.slot i with
  | marked t m =>
    have hk : t.key ∈ queue := by_contra fun hk => h ⟨t, m, hi, hk⟩
    simp [refillOf, hi, hk]
  | _ => simp [refillOf, hi]

theorem chooseFrame_of_report {s : State} {k : TileKey} {rest : List TileKey} (hevents : s.pli.events = [])
    (hretries : s.pli.retries = []) (hanswers : s.pli.answers = []) (hrequests : s.pli.requests = [])
    (hqueue : s.mru.reportQueue = k :: rest) : chooseFrame s = sendReport k rest s := by
  simp only [chooseFrame, hevents, hretries, hanswers, hrequests, hqueue]

theorem sendReport_of_marked {s : State} {i : SlotNo} {t : Tile} {m : Marks} {rest : List TileKey} (hlaw : WindowLaw s)
    (hi : s.twn.slot i = .marked t m) :
    sendReport t.key rest s = beginLeaving (.report (buildReport t m)) (afterReport i t m rest s) := by
  simp only [sendReport, hlaw.find_eq (i := i) (k := t.key) (by rw [hi]; rfl), hi]

/-- Settles O51. -/
theorem reportIsBuiltAtItsTurn : Obligations.ReportIsBuiltAtItsTurn := by
  intro i t m rest s hevents hretries hanswers hrequests hlaw horder hqueue hi order unqueued
  let sent : Slot := .sent t (m.afterReport s.pot.timeCount)
  have hslot : ∀ j ∈ order, (s.twn.put i sent).slot j = s.twn.slot j := fun j hj =>
    TileWindow.slot_put_of_ne _ _ fun h => horder.1.not_mem_erase (h ▸ hj)
  have hnone : ∀ j ∈ order, ¬unqueued j → refillOf (s.twn.put i sent) rest j = none := fun j hj hu =>
    refillOf_eq_none fun ⟨u, n, hu', hk⟩ => hu ⟨u, n, hslot j hj ▸ hu', hk⟩
  refine ⟨rest ++ (refillKey (s.twn.put i sent) order rest).toList, ?_, fun before j after hsplit hb u n hj hu => ?_, fun hall => ?_⟩
  · rw [← unsentCount_eq, recordsWith_false]
    exact congrArg Host.Outcome.next ((chooseFrame_of_report (s := { s with pli := { s.pli with leaving := none } }) hevents
      hretries hanswers hrequests hqueue).trans (sendReport_of_marked hlaw hi))
  · have hmem : ∀ j' ∈ before ++ j :: after, j' ∈ order := fun j' hj' => hsplit ▸ hj'
    have hfound : refillKey (s.twn.put i sent) order rest = some u.key := by
      rw [refillKey_eq, List.findSome?_eq_some_iff]
      refine ⟨before, j, after, hsplit, refillOf_of_marked ((hslot j (hmem j (by simp))).trans hj) hu, fun b hb' => ?_⟩
      exact hnone b (hmem b (by simp [hb'])) (hb b hb')
    rw [hfound]
    rfl
  · have : refillKey (s.twn.put i sent) order rest = none := by
      rw [refillKey_eq, List.findSome?_eq_none_iff]
      exact fun j hj => hnone j hj (hall j hj)
    rw [this]
    simp

/-! ## The transmitters (R157, R171) -/

theorem exec_planTransmitterFree_of_free {s : State} (h : s.pli.leaving = none) :
    exec .planTransmitterFree s = .next (arbitrate s) := by
  have : { s with pli := { s.pli with leaving := none } } = s := by rw [← h]
  simp only [exec, execPlanTransmitterFree, this, arbitrate, h]

theorem arbitrate_of_busy {s : State} (h : ∃ f, s.pli.leaving = some f) : arbitrate s = s := by
  obtain ⟨f, hf⟩ := h
  simp only [arbitrate, hf]

/-- Settles O52. -/
theorem transmittersSendInOrder : Obligations.TransmittersSendInOrder := by
  refine ⟨fun s => ⟨fun f rest h => ?_, fun h0 f rest h => ?_, fun h0 h1 f rest h => ?_, fun h0 h1 h2 k rest h => ?_,
    fun h0 h1 h2 h3 h4 h5 => ?_, arbitrate_of_busy, exec_planTransmitterFree_of_free⟩, fun s => ⟨rfl, fun f => sendDrive_eq f s⟩⟩
  · simp only [exec, execPlanTransmitterFree, chooseFrame, h]
    rfl
  · simp only [exec, execPlanTransmitterFree, chooseFrame, h0, h]
    rfl
  · simp only [exec, execPlanTransmitterFree, chooseFrame, h0, h1, h]
    rfl
  · simp only [exec, execPlanTransmitterFree, chooseFrame, h0, h1, h2, h]
    rfl
  · simp [exec, execPlanTransmitterFree, chooseFrame, h0, h1, h2, h3, h4, h5]

/-! ## STATUS (R172, R173) -/

theorem eventKinds_pairwise : (eventKinds.map fun k => (eventNumber k).val).Pairwise (· < ·) := by decide

theorem shown_pairwise (e : EventUnit) : (e.shown.map fun p => (eventNumber p.1).val).Pairwise (· < ·) := by
  rw [EventUnit.shown, List.map_map]
  exact eventKinds_pairwise.sublist (List.filter_sublist.map _)

/-- Settles O53. -/
theorem statusShowsThePartAtItsTurn : Obligations.StatusShowsThePartAtItsTurn := by
  refine ⟨fun s hs => congrArg Host.Outcome.next (takePlan_of_taken hs rfl _), fun s h => exec_statusInterval_of_due h,
    fun s hevents hretries hanswers hrequests hreports hstatus => ?_⟩
  refine ⟨statusOf s, ?_, ?_, fun k d => mem_statusOf_events, shown_pairwise _⟩
  · exact exec_planTransmitterFree_of_only_status hevents hretries hanswers hrequests hreports hstatus
  · simp only [statusOf, hreports, List.length_nil]
    rfl

end Sys2Proof.Machine
end

section
/-! The gate: the scan, the source, the spin and travelling cases, and the brush wish (R89 to R100). -/

namespace Sys2Proof.Machine

/-! ## The scan (R92, R93) -/

/-- Two states with the same slots, pose and tables: a lookup answers the same in both. -/
def SameTiles (s t : State) : Prop := t.twn.slots = s.twn.slots ∧ t.pot = s.pot ∧ t.tbs = s.tbs

theorem SameTiles.classAt_eq {s t : State} (h : SameTiles s t) (c : Cell) : classAt t c = classAt s c := by
  have hslot : t.twn.slot = s.twn.slot := funext fun i => congrArg (·[i]) h.1
  have hfind : t.twn.find = s.twn.find := funext fun k => by simp only [TileWindow.find, hslot]
  simp only [classAt, hfind, hslot, h.2.1]

/-- A lookup that answers a class moves its slot to most-recent, and nothing else. -/
theorem lookup_sameTiles {c : Cell} {s : State} {cls : CellClass} (h : classAt s c = some cls) : SameTiles s (lookup c s).2 := by
  rw [← lookup_fst] at h
  rcases lookup_cases c s with ⟨-, e⟩ | ⟨_, _, _, -, -, e⟩ | ⟨i, t, -, -, -, e⟩
  · simp [e] at h
  · simp [e] at h
  · rw [e]
    exact ⟨rfl, rfl, rfl⟩

/-- Sample `k` stops the scan: it lies off the level, or its cell is unknown or of a blocking class (R93). -/
def StopsAt (s : State) (heading k : Nat) : Prop :=
  ∀ c, sampleCell s heading k = some c → ∀ cls, classAt s c = some cls → s.tbs.response[cls].blocking = true

/-- The lookup of sample `k`. -/
def lookupSample (heading k : Nat) (s : State) : Option CellClass × State := lookupOrOffMap (sampleCell s heading k) s

section
variable {s : State} {heading k : Nat}

theorem sampleCell_congr {t : State} (hp : t.pot = s.pot) (ht : t.tbs = s.tbs) (heading k : Nat) :
    sampleCell t heading k = sampleCell s heading k := by
  simp only [sampleCell, hp, ht]

theorem SameTiles.stopsAt_iff {t : State} (h : SameTiles s t) : StopsAt t heading k ↔ StopsAt s heading k := by
  simp only [StopsAt, sampleCell_congr h.2.1 h.2.2, h.classAt_eq, h.2.2]

theorem stopsScan_lookupSample (h15 : s.tbs.response[15].blocking = true) :
    stopsScan (lookupSample heading k s).2 (lookupSample heading k s).1 = true ↔ StopsAt s heading k := by
  unfold lookupSample StopsAt
  cases hc : sampleCell s heading k with
  | none => exact iff_of_true h15 (by simp)
  | some c =>
    have hresponse : (lookup c s).2.tbs = s.tbs := (lookup_windowOnly c s).tbs
    simp only [lookupOrOffMap, Option.some.injEq, forall_eq', lookup_fst]
    cases classAt s c <;> simp [stopsScan, responseOf, hresponse]

theorem lookupSample_sameTiles (h : ¬StopsAt s heading k) : SameTiles s (lookupSample heading k s).2 := by
  simp only [StopsAt, not_forall] at h
  obtain ⟨c, hc, cls, hcls, -⟩ := h
  simp only [lookupSample, hc, lookupOrOffMap]
  exact lookup_sameTiles hcls

theorem scanFrom_of_stops {left : Nat} (h15 : s.tbs.response[15].blocking = true) (h : StopsAt s heading k) :
    scanFrom heading (left + 1) k s = (k, (lookupSample heading k s).2) := by
  have hstop := (stopsScan_lookupSample h15).mpr h
  unfold lookupSample at hstop ⊢
  rw [scanFrom, if_pos hstop]

theorem scanFrom_of_passes {left : Nat} (h15 : s.tbs.response[15].blocking = true) (h : ¬StopsAt s heading k) :
    scanFrom heading (left + 1) k s = scanFrom heading left (k + 1) (lookupSample heading k s).2 := by
  have hpass := mt (stopsScan_lookupSample h15).mp h
  unfold lookupSample at hpass ⊢
  rw [scanFrom, if_neg hpass]

end

/-- The scan answers the first sample that stops it. -/
theorem scanFrom_fst_of_stop {heading left k m : Nat} {s : State} (h15 : s.tbs.response[15].blocking = true) (hkm : k ≤ m)
    (hm : m < k + left) (hstop : StopsAt s heading m) (hpass : ∀ j, k ≤ j → j < m → ¬StopsAt s heading j) :
    (scanFrom heading left k s).1 = m := by
  induction left generalizing k s with
  | zero => omega
  | succ left ih =>
    rcases Nat.eq_or_lt_of_le hkm with rfl | hlt
    · rw [scanFrom_of_stops h15 hstop]
    · have hk := hpass k (Nat.le_refl k) hlt
      have hsame := lookupSample_sameTiles hk
      rw [scanFrom_of_passes h15 hk]
      exact ih (by rw [hsame.2.2]; exact h15) hlt (by omega) (hsame.stopsAt_iff.mpr hstop)
        fun j hj hjm => mt hsame.stopsAt_iff.mp (hpass j (by omega) hjm)

theorem scanFrom_fst_of_clear {heading left k : Nat} {s : State} (h15 : s.tbs.response[15].blocking = true)
    (hpass : ∀ j, k ≤ j → j < k + left → ¬StopsAt s heading j) : (scanFrom heading left k s).1 = 0 := by
  induction left generalizing k s with
  | zero => rfl
  | succ left ih =>
    have hk := hpass k (Nat.le_refl k) (by omega)
    have hsame := lookupSample_sameTiles hk
    rw [scanFrom_of_passes h15 hk]
    exact ih (by rw [hsame.2.2]; exact h15) fun j hj hjm => mt hsame.stopsAt_iff.mp (hpass j (by omega) (by omega))

theorem scanFrom_fst_ge (heading left k : Nat) (s : State) :
    (scanFrom heading left k s).1 = 0 ∨ k ≤ (scanFrom heading left k s).1 := by
  induction left generalizing k s with
  | zero => exact .inl rfl
  | succ left ih =>
    rw [scanFrom]
    split
    · exact .inr (Nat.le_refl k)
    · exact (ih (k + 1) _).imp_right fun h => by omega

theorem foldl_range_succ {α : Type} (f : α → Nat → α) (n : Nat) (a : α) :
    (List.range (n + 1)).foldl f a = (List.range n).foldl (fun b j => f b (j + 1)) (f a 0) := by
  rw [List.range_succ_eq_map, List.foldl_cons, List.foldl_map]

/-- The scan leaves what its lookups leave, one after another. -/
theorem scanFrom_snd {heading left k : Nat} {s : State} (hk : 1 ≤ k) :
    (scanFrom heading left k s).2 =
      (List.range (if (scanFrom heading left k s).1 = 0 then left else (scanFrom heading left k s).1 + 1 - k)).foldl
        (fun t j => (lookupOrOffMap (sampleCell s heading (k + j)) t).2) s := by
  induction left generalizing k s with
  | zero => simp [scanFrom]
  | succ left ih =>
    rw [scanFrom]
    split
    · simp [show k ≠ 0 by omega, show k + 1 - k = 1 by omega, List.range_succ]
    · have hw := lookupOrOffMap_windowOnly (sampleCell s heading k) s
      have hcell (n : Nat) : sampleCell (lookupOrOffMap (sampleCell s heading k) s).2 heading n = sampleCell s heading n :=
        sampleCell_congr hw.pot hw.tbs heading n
      rw [ih (by omega)]
      simp only [hcell]
      have hge := scanFrom_fst_ge heading left (k + 1) (lookupOrOffMap (sampleCell s heading k) s).2
      generalize (scanFrom heading left (k + 1) (lookupOrOffMap (sampleCell s heading k) s).2).1 = r at hge
      have hcount : (if r = 0 then left + 1 else r + 1 - k) = (if r = 0 then left else r + 1 - (k + 1)) + 1 := by
        split <;> omega
      rw [hcount, foldl_range_succ]
      simp only [Nat.add_zero, Nat.add_right_comm, Nat.add_assoc]

theorem cellOfPoint_eq (x y : Int) : cellOfPoint x y =
    if (x < 0 || 819199 < x || y < 0 || 819199 < y) = true then none
    else some { col := x.toNat / 800, row := y.toNat / 800 } := by
  unfold cellOfPoint positionMax
  by_cases h : (0 ≤ x ∧ x ≤ 819199) ∧ 0 ≤ y ∧ y ≤ 819199
  · rw [if_pos (by simpa [and_assoc] using h), if_neg (by simp; omega)]
    rfl
  · rw [if_neg (by simpa [and_assoc] using h), if_pos (by simp; omega)]

theorem lookupOrOffMap_ite (off : Bool) (c : Cell) (s : State) :
    (lookupOrOffMap (if off = true then none else some c) s).2 = if off = true then s else (lookup c s).2 := by
  cases off <;> rfl

theorem brakeLimit_zero (t : BrakingTable) : brakeLimit t 0 = t.vclear := rfl

theorem brakeLimit_succ (t : BrakingTable) (k : Fin 16) : brakeLimit t (k.val + 1) = t.limits[k] := by
  simp [brakeLimit]

theorem scan_of_valid {s : State} (hv : s.pot.pose.valid = true) (vc : Int) : scan vc s =
    let r := scanFrom (scanHeading s.pot.pose.heading vc) s.tbs.cal.lookAhead 1 s
    ((r.1, brakeLimit s.tbs.braking r.1), r.2) := if_pos hv

/-- Settles O45. -/
theorem scanFindsTheFirstStop : Obligations.ScanFindsTheFirstStop := by
  refine ⟨fun c s hlaw => ⟨lookup_fst c s, fun i t ht hk => lookup_of_tile hlaw ht hk, fun i at_ hi => lookup_of_pending hlaw hi,
    fun hno => lookup_of_no_slot hno⟩, ?_⟩
  intro vc s hvc hv h15 hL heading far x y off cell stops
  have hsample (k : Nat) : sampleCell s heading k = if off k = true then none else some (cell k) := cellOfPoint_eq (x k) (y k)
  have hstops (k : Nat) : StopsAt s heading k ↔ stops k := by
    simp only [StopsAt, stops, hsample]
    cases off k <;> simp
  rw [scan_of_valid hv, show scanHeading s.pot.pose.heading vc = heading from rfl]
  refine ⟨fun k hk hstop hpass => ?_, fun hpass => ?_, ?_⟩
  · have := scanFrom_fst_of_stop (left := s.tbs.cal.lookAhead) h15 (Nat.succ_le_succ k.val.zero_le) (by omega)
      ((hstops (k.val + 1)).mpr hstop) fun j hj hjm => mt (hstops j).mp (hpass j hj (by omega))
    simp only [this, brakeLimit_succ]
  · have := scanFrom_fst_of_clear (left := s.tbs.cal.lookAhead) (k := 1) (heading := heading) h15 fun j hj hjm =>
      mt (hstops j).mp (hpass j hj (by omega))
    simp only [this, brakeLimit_zero]
  · dsimp only
    rw [scanFrom_snd (Nat.le_refl 1)]
    simp only [Nat.add_sub_cancel, hsample, Nat.add_comm 1, lookupOrOffMap_ite]

/-! ## The source (R89, R146, R154) -/

theorem moving_iff {r : RunState} : r.moving = true ↔ SegmentState r := by
  cases r <;> simp [RunState.moving, SegmentState]

theorem gateSource_of_segments {s : State} (h : SegmentState s.rct.state) :
    gateSource s = some (match s.mgt.current with | none => (0, 0) | some c => (c.segment.vL, c.segment.vR)) := by
  unfold gateSource
  rcases h with h | h | h | h <;> rw [h] <;> cases s.mgt.current <;> rfl

theorem gateSource_of_approach {s : State} (h : s.rct.state = .approach) :
    gateSource s = some (approachSource s.tbs.cal s.dau) := by
  simp only [gateSource, h]

theorem gateSource_of_still {s : State} (h : StillState s.rct.state) : gateSource s = none := by
  unfold gateSource
  rcases h with h | h | h | h | h <;> rw [h]

theorem gateSource_of_back {s : State} {h : Hazard} {m : Measure} (hr : s.rct.state = .reflex) (hp : s.rfx.phase = .back h m) :
    gateSource s = some (-(s.tbs.cal.backOffSpeed : Int), -(s.tbs.cal.backOffSpeed : Int)) := by
  simp only [gateSource, hr, hp]

theorem gateSource_of_halt {s : State} {h : Hazard} (hr : s.rct.state = .reflex) (hp : s.rfx.phase = .halt h) :
    gateSource s = none := by
  simp only [gateSource, hr, hp]

/-! ## The spin and travelling cases (R90 to R98) -/

section
variable {s : State} {srcL srcR : Int}

theorem gateCompute_of_no_source (h : gateSource s = none) :
    gateCompute s = ({ vL := 0, vR := 0, wish := brushWish s none, result := stillResult }, s) := by
  simp only [gateCompute, h]

theorem gateCompute_of_source (h : gateSource s = some (srcL, srcR)) : gateCompute s =
    if centreSpeed (clampWheel s.tbs.cal.vWheel srcL) (clampWheel s.tbs.cal.vWheel srcR) = 0 then
      spin srcL srcR (clampWheel s.tbs.cal.vWheel srcL) (clampWheel s.tbs.cal.vWheel srcR) s
    else travel srcL srcR (clampWheel s.tbs.cal.vWheel srcL) (clampWheel s.tbs.cal.vWheel srcR) s := by
  simp only [gateCompute, h]

theorem decide_scaled (a b c d : Int) : (a != b || c != d) = decide (a ≠ b ∨ c ≠ d) := by
  simp [bne, Bool.beq_eq_decide_eq]

theorem lookupCentre_of_valid (h : s.pot.pose.valid = true) :
    lookupCentre s = lookup { col := s.pot.pose.x / 800, row := s.pot.pose.y / 800 } s := if_pos h

theorem lookupCentre_of_invalid (h : s.pot.pose.valid = false) : lookupCentre s = (none, s) :=
  if_neg (Bool.not_eq_true _ ▸ h)

theorem spin_snd_of_moving (hm : SegmentState s.rct.state) (vL vR : Int) :
    (spin srcL srcR vL vR s).2 = (lookupCentre s).2 := by
  simp only [spin, moving_iff.mpr hm, if_true]

theorem spin_snd_of_not_moving (hm : ¬SegmentState s.rct.state) (vL vR : Int) : (spin srcL srcR vL vR s).2 = s := by
  simp only [spin, mt moving_iff.mp hm, if_false, Bool.false_eq_true]

end

/-- Settles O44. -/
theorem gateSpinsOnZeroCentreSpeed : Obligations.GateSpinsOnZeroCentreSpeed := by
  intro s a w b
  refine ⟨gateSource_of_segments, fun h => ?_, fun h m hr hp => ?_, fun h hr hp => ?_, gateSource_of_still, fun h => ?_,
    fun h => ?_, ?_⟩
  · simp only [gateSource, h]
    rfl
  · exact gateSource_of_back hr hp
  · exact gateSource_of_halt hr hp
  · rw [gateSource_of_approach h]
    refine ⟨fun hp hl => ?_, fun hp hl => ?_, fun hp hl => ?_, fun hp hl => ?_, fun hp hl => ?_, fun hp => ?_, fun hp => ?_⟩
    · simp only [approachSource, hp, hl]
      rfl
    · simp only [approachSource, hp, hl]
      rfl
    · simp only [approachSource, hp, hl]
      rfl
    · simp only [approachSource, hp, hl]
      rfl
    · unfold approachSource
      rw [hp]
      cases hs : s.dau.lastSector with
      | none => rfl
      | some x =>
        cases x with
        | left => rfl
        | centre => rfl
        | right => exact absurd hs hl
    · simp only [approachSource, hp]
      rfl
    · rcases hp with hp | hp <;> simp only [approachSource, hp]
  · rw [gateCompute_of_no_source h]
    exact ⟨rfl, rfl, rfl, rfl⟩
  · intro srcL srcR hsrc limit spin vL vR hvc
    rw [(gateCompute_of_source hsrc).trans (if_pos hvc)]
    refine ⟨rfl, rfl, ?_, fun hm hv => ?_, fun hstill => ?_⟩
    · rw [← decide_scaled]
      rfl
    · rw [spin_snd_of_moving hm, lookupCentre_of_valid hv]
    · by_cases hm : SegmentState s.rct.state
      · rw [spin_snd_of_moving hm, lookupCentre_of_invalid (hstill.resolve_left (not_not_intro hm))]
      · exact spin_snd_of_not_moving hm _ _

/-! ## The limit on the centre speed (R96, R97) -/

/-- The truncated quotient, multiplied back, leaves a remainder of the dividend's sign. -/
theorem tdiv_bounds (x : Int) {n : Int} (hn : 0 < n) :
    (0 ≤ x → n * x.tdiv n ≤ x ∧ x < n * x.tdiv n + n) ∧ (x ≤ 0 → x ≤ n * x.tdiv n ∧ n * x.tdiv n - n < x) := by
  have hsplit := Int.mul_tdiv_add_tmod x n
  refine ⟨fun hx => ?_, fun hx => ?_⟩
  · have hlo := Int.tmod_nonneg n hx
    have hhi := Int.tmod_lt_of_pos x hn
    omega
  · have hhi := Int.tmod_nonneg n (Int.neg_nonneg_of_nonpos hx)
    have hlo := Int.tmod_lt_of_pos (-x) hn
    rw [Int.neg_tmod] at hhi hlo
    omega

/-- Two wheels scaled by `v / |c|`, `c` their truncated mean, have a mean of magnitude at most `v` (R97). -/
theorem scaled_centre_le {a b n v : Int} (hn : n = ((a + b).tdiv 2).natAbs) (hv : 0 ≤ v) (hvn : v < n) :
    ((((a * v).tdiv n + (b * v).tdiv n).tdiv 2).natAbs : Int) ≤ v := by
  have hpos : 0 < n := by omega
  have hsum : a + b ≤ 2 * n + 1 ∧ -(2 * n + 1) ≤ a + b := by
    have := tdiv_bounds (a + b) (n := 2) (by omega)
    omega
  obtain ⟨ha, ha'⟩ := tdiv_bounds (a * v) hpos
  obtain ⟨hb, hb'⟩ := tdiv_bounds (b * v) hpos
  generalize (a * v).tdiv n = p at *
  generalize (b * v).tdiv n = q at *
  have hhi : (a + b) * v ≤ (2 * n + 1) * v := Int.mul_le_mul_of_nonneg_right hsum.1 hv
  have hlo : -(2 * n + 1) * v ≤ (a + b) * v := Int.mul_le_mul_of_nonneg_right hsum.2 hv
  have hbound : n * (p + q) < n * (2 * v + 2) ∧ n * (-(2 * v + 2)) < n * (p + q) := by
    rcases le_total 0 a with h | h <;> rcases le_total 0 b with h' | h'
    · have := ha (Int.mul_nonneg h hv)
      have := hb (Int.mul_nonneg h' hv)
      constructor <;> nlinarith
    · have := ha (Int.mul_nonneg h hv)
      have := hb' (Int.mul_nonpos_of_nonpos_of_nonneg h' hv)
      constructor <;> nlinarith
    · have := ha' (Int.mul_nonpos_of_nonpos_of_nonneg h hv)
      have := hb (Int.mul_nonneg h' hv)
      constructor <;> nlinarith
    · have := ha' (Int.mul_nonpos_of_nonpos_of_nonneg h hv)
      have := hb' (Int.mul_nonpos_of_nonpos_of_nonneg h' hv)
      constructor <;> nlinarith
  have h1 := Int.lt_of_mul_lt_mul_left hbound.1 hpos.le
  have h2 := Int.lt_of_mul_lt_mul_left hbound.2 hpos.le
  have := tdiv_bounds (p + q) (n := 2) (by omega)
  omega

theorem scalePair_of_le {vL vR vc : Int} {vlim : Nat} (h : vc.natAbs ≤ vlim) : scalePair vL vR vlim vc = (vL, vR) := if_pos h

theorem scalePair_of_lt {vL vR vc : Int} {vlim : Nat} (h : vlim < vc.natAbs) :
    scalePair vL vR vlim vc = ((vL * vlim).tdiv vc.natAbs, (vR * vlim).tdiv vc.natAbs) := if_neg (Nat.not_le.mpr h)

theorem centreSpeed_scalePair_le (vL vR : Int) (vlim : Nat) :
    (centreSpeed (scalePair vL vR vlim (centreSpeed vL vR)).1 (scalePair vL vR vlim (centreSpeed vL vR)).2).natAbs ≤ vlim := by
  rcases Nat.lt_or_ge vlim (centreSpeed vL vR).natAbs with h | h
  · rw [scalePair_of_lt h]
    exact Int.ofNat_le.mp (scaled_centre_le rfl (Int.natCast_nonneg vlim) (Int.ofNat_lt.mpr h))
  · rw [scalePair_of_le h]
    exact h

theorem gateLimit_of_clear {s : State} (h : ∀ x, s.rfx.suspects.get x = none) (brake cap : Nat) :
    gateLimit s brake cap = min (min brake cap) s.tbs.cal.vMax / creepDivisor s := by
  refine if_neg fun hs => ?_
  obtain ⟨x, hx⟩ := anySuspect_iff.mp hs
  simp [h x] at hx

theorem gateLimit_of_suspect {s : State} (h : ∃ x, s.rfx.suspects.get x ≠ none) (brake cap : Nat) :
    gateLimit s brake cap = min (min (min brake cap) s.tbs.cal.vMax / creepDivisor s) s.tbs.cal.confirmCreep := by
  obtain ⟨x, hx⟩ := h
  exact if_pos (anySuspect_iff.mpr ⟨x, Option.isSome_iff_ne_none.mpr hx⟩)

theorem scan_windowOnly (vc : Int) (s : State) : WindowOnly s (scan vc s).2 := by
  unfold scan
  split
  · exact (scanFrom_frame _ _ _ s).1
  · rfl

theorem scan_of_invalid {s : State} (hv : s.pot.pose.valid = false) (vc : Int) :
    scan vc s = ((0, s.tbs.cal.blindLimit), s) := if_neg (Bool.not_eq_true _ ▸ hv)

/-- What the window holds, after the scan, for the robot's centre cell; none with the pose invalid (R95). -/
theorem lookupCentre_scan_fst {s : State} (vc : Int) (hv : s.pot.pose.valid = true) :
    (lookupCentre (scan vc s).2).1 = classAt (scan vc s).2 { col := s.pot.pose.x / 800, row := s.pot.pose.y / 800 } := by
  have hpot := (scan_windowOnly vc s).pot
  rw [lookupCentre_of_valid (by rw [hpot]; exact hv), lookup_fst, hpot]

/-- Settles O46. -/
theorem gateLimitsTheCentreSpeed : Obligations.GateLimitsTheCentreSpeed := by
  intro s srcL srcR hsrc wheel vL vR vc n out hvc
  have hout : gateCompute s = travel srcL srcR vL vR s := (gateCompute_of_source hsrc).trans (if_neg hvc)
  let cap := floorCap s (lookupCentre (scan vc s).2).1
  refine ⟨(scan vc s).1.2, cap, (scan vc s).1.1, gateLimit s (scan vc s).1.2 cap, fun hv => ?blind, fun hv => ⟨rfl, ?cap⟩,
    fun hv => ?trace, fun h => gateLimit_of_clear h _ _, fun h => gateLimit_of_suspect h _ _, fun h => ?slow, fun h => ?fast,
    ?bound, ?result⟩
  case blind =>
    have hscan := scan_of_invalid hv vc
    have hcentre := lookupCentre_of_invalid hv
    refine ⟨by rw [hscan], ?_, by rw [hscan], ?_⟩
    · simp only [cap, hscan, hcentre, floorCap]
    · rw [hout]
      exact (congrArg (fun r => (lookupCentre r.2).2) hscan).trans (congrArg Prod.snd hcentre)
  case cap =>
    rw [← lookupCentre_scan_fst vc hv]
    rfl
  case trace =>
    have hpot := (scan_windowOnly vc s).pot
    rw [hout]
    refine (congrArg Prod.snd (lookupCentre_of_valid (s := (scan vc s).2) (by rw [hpot]; exact hv))).trans ?_
    rw [hpot]
  case slow =>
    have := scalePair_of_le (vL := vL) (vR := vR) h
    exact ⟨(congrArg (fun r => r.1.vL) hout).trans (congrArg Prod.fst this),
      (congrArg (fun r => r.1.vR) hout).trans (congrArg Prod.snd this)⟩
  case fast =>
    have := scalePair_of_lt (vL := vL) (vR := vR) h
    exact ⟨(congrArg (fun r => r.1.vL) hout).trans (congrArg Prod.fst this),
      (congrArg (fun r => r.1.vR) hout).trans (congrArg Prod.snd this)⟩
  case bound =>
    rw [show out = (travel srcL srcR vL vR s).1 from congrArg Prod.fst hout]
    exact centreSpeed_scalePair_le vL vR _
  case result =>
    rw [show out = (travel srcL srcR vL vR s).1 from congrArg Prod.fst hout, ← decide_scaled]
    rfl

/-! ## The brush wish (R99) -/

theorem stricter_cases (a b : BrushState) : stricter a b = a ∨ stricter a b = b := by
  unfold stricter
  split
  · exact .inl rfl
  · exact .inr rfl

theorem brushRank_stricter_le (a b : BrushState) :
    brushRank (stricter a b) ≤ brushRank a ∧ brushRank (stricter a b) ≤ brushRank b := by
  unfold stricter
  split <;> omega

/-- The wish is a brush wish for whatever the centre cell's lookup found. -/
theorem gateCompute_wish (s : State) : ∃ centre, (gateCompute s).1.wish = brushWish s centre := by
  cases h : gateSource s with
  | none => exact ⟨none, by rw [gateCompute_of_no_source h]⟩
  | some src =>
    rw [gateCompute_of_source h]
    split
    · exact ⟨_, rfl⟩
    · exact ⟨_, rfl⟩

theorem brushWish_of_jam {s : State} {m : Measure} (hr : s.rct.state = .reflex) (hp : s.rfx.phase = .back .jam m)
    (centre : Option CellClass) : brushWish s centre = .reverse := by
  simp [brushWish, hr, hp, RunState.moving]

theorem brushWish_of_not_jam {s : State} (hm : ¬SegmentState s.rct.state) (hp : ∀ m, s.rfx.phase ≠ .back .jam m)
    (centre : Option CellClass) : brushWish s centre = .stop := by
  rw [brushWish, if_neg (mt moving_iff.mp hm)]
  split
  · exact absurd ‹_› (hp _)
  · rfl

theorem brushWish_of_request {s : State} {c : CurrentSegment} {b : BrushState} (h : SegmentState s.rct.state)
    (hc : s.mgt.current = some c) (hb : c.segment.brush = some b) (centre : Option CellClass) :
    brushWish s centre = stricter b (centreWish s centre) := by
  simp only [brushWish, moving_iff.mpr h, if_true, hc, Option.bind_some, hb]

theorem brushWish_of_no_request {s : State} (h : SegmentState s.rct.state)
    (hb : ∀ c, s.mgt.current = some c → c.segment.brush = none) (centre : Option CellClass) :
    brushWish s centre = centreWish s centre := by
  have : (s.mgt.current.bind fun c => c.segment.brush) = none := Option.bind_eq_none_iff.mpr hb
  simp only [brushWish, moving_iff.mpr h, if_true, this]

/-- Settles O47. -/
theorem brushWishIsTheMostRestrictive : Obligations.BrushWishIsTheMostRestrictive := by
  intro s rank wish wheel source vc
  refine ⟨fun hr hp => ?jam, fun hm hp => ?still, fun hm => ?moving⟩
  case jam =>
    obtain ⟨m, hp⟩ := hp
    obtain ⟨centre, hwish⟩ := gateCompute_wish s
    exact hwish.trans (brushWish_of_jam hr hp _)
  case still =>
    obtain ⟨centre, hwish⟩ := gateCompute_wish s
    exact hwish.trans (brushWish_of_not_jam hm hp _)
  case moving =>
    let found : Option CellClass := (lookupCentre (if vc = 0 then s else (scan vc s).2)).1
    have hwish : wish = brushWish s found := by
      have hsrc : gateSource s = some (source.1, source.2) := gateSource_of_segments hm
      show (gateCompute s).1.wish = _
      by_cases hvc : vc = 0
      · rw [(gateCompute_of_source hsrc).trans (if_pos hvc)]
        simp only [spin, moving_iff.mpr hm, if_true, found, hvc]
      · rw [(gateCompute_of_source hsrc).trans (if_neg hvc)]
        simp only [travel, found, hvc, if_false]
        rfl
    refine ⟨centreWish s found, fun hv => ?_, fun hv => ?_, fun c b hc hb => ?_, fun hb => ?_⟩
    · have : found = none := by
        simp only [found, scan_of_invalid hv, ite_self, lookupCentre_of_invalid hv]
      rw [this]
      rfl
    · have : found = classAt (if vc = 0 then s else (scan vc s).2)
          { col := s.pot.pose.x / 800, row := s.pot.pose.y / 800 } := by
        simp only [found]
        split
        · rw [lookupCentre_of_valid hv, lookup_fst]
        · exact lookupCentre_scan_fst vc hv
      rw [← this]
      cases found <;> rfl
    · rw [hwish, brushWish_of_request hm hc hb]
      exact ⟨stricter_cases _ _, brushRank_stricter_le _ _⟩
    · rw [hwish, brushWish_of_no_request hm hb]

end Sys2Proof.Machine
end

section
/-! The odometry reply: the position and its history, the read-ahead, and the travel handed on (R22 to R26, R46, R47, R83, R84,
R123, R128, R134, R149, R154, R159). -/

namespace Sys2Proof.Machine

/-! ## What leaves an event record alone -/

section
variable {j : EventKind} {s : State}

theorem raise_record_of_ne {k : EventKind} (h : j ≠ k) (d : Detail) : (raise k d s).evu.record j = s.evu.record j := by
  rw [raise_record, if_neg h]

theorem request_record (h : j ≠ .windowFull) (k : TileKey) : (request k s).evu.record j = s.evu.record j := by
  rcases request_cases k s with e | ⟨i, -, -, -, e⟩ | ⟨-, -, e⟩ <;> rw [e]
  · rfl
  · exact raise_record_of_ne h _

theorem requests_record (h : j ≠ .windowFull) (keys : List TileKey) :
    (keys.foldl (fun t k => request k t) s).evu.record j = s.evu.record j := by
  induction keys generalizing s with
  | nil => rfl
  | cons k rest ih => exact ih.trans (request_record h k)

theorem lookup_record (h : j ≠ .windowFull) (c : Cell) : (lookup c s).2.evu.record j = s.evu.record j := by
  rcases lookup_cases c s with ⟨-, e⟩ | ⟨_, _, _, -, -, e⟩ | ⟨_, _, -, -, -, e⟩ <;> rw [e]
  dsimp only
  split
  · exact request_record h _
  · rfl

theorem recordMark_evu (i : SlotNo) (r : MarkRecord) (s : State) : (recordMark i r s).evu = s.evu := by rw [recordMark_only]

theorem requestMark_record (h : j ≠ .windowFull) (h' : j ≠ .markDropped) (z : Hazard) (age : Nat) :
    (requestMark z age s).evu.record j = s.evu.record j := by
  rcases requestMark_cases z age s with ⟨e, -⟩ | ⟨-, cls, -, e⟩ <;> rw [e]
  rcases placeMark_cases z.kind cls (markPoint s age z).1 (markPoint s age z).2 s with
    ⟨-, e⟩ | ⟨i, t, -, -, -, ⟨-, e⟩ | ⟨-, e⟩⟩ <;> rw [e]
  · exact (raise_record_of_ne h' _).trans (lookup_record h _)
  · rw [recordMark_evu]

end

/-! ## What the reply's followers leave alone -/

/-- What the holders of the travel, the read-ahead and the stall inputs leave alone after the position has moved. -/
structure ReplyFrame (s t : State) : Prop where
  pot : t.pot = s.pot
  tbs : t.tbs = s.tbs
  snp : t.snp = s.snp
  watch : t.dli.watch = s.dli.watch
  period : t.mgt.period = s.mgt.period
  result : t.mgt.result = s.mgt.result
  modeQueue : t.rct.modeQueue = s.rct.modeQueue
  creep : t.rct.creep = s.rct.creep
  poseEdge : t.evu.record .poseEdge = s.evu.record .poseEdge

section
variable {s t u : State}

theorem ReplyFrame.refl (s : State) : ReplyFrame s s := ⟨rfl, rfl, rfl, rfl, rfl, rfl, rfl, rfl, rfl⟩

theorem ReplyFrame.trans (h : ReplyFrame s t) (h' : ReplyFrame t u) : ReplyFrame s u :=
  ⟨h'.pot.trans h.pot, h'.tbs.trans h.tbs, h'.snp.trans h.snp, h'.watch.trans h.watch, h'.period.trans h.period,
    h'.result.trans h.result, h'.modeQueue.trans h.modeQueue, h'.creep.trans h.creep, h'.poseEdge.trans h.poseEdge⟩

theorem MapOnly.replyFrame (h : MapOnly s t) (he : t.evu.record .poseEdge = s.evu.record .poseEdge) : ReplyFrame s t :=
  ⟨h.pot, h.tbs, h.snp, by rw [h.dli], by rw [h.mgt], by rw [h.mgt], by rw [h.rct], by rw [h.rct], he⟩

theorem raise_replyFrame {k : EventKind} (h : EventKind.poseEdge ≠ k) (d : Detail) (s : State) : ReplyFrame s (raise k d s) :=
  ⟨rfl, rfl, rfl, rfl, rfl, rfl, rfl, rfl, raise_record_of_ne h d⟩

theorem changeRun_replyFrame (r : RunState) (s : State) : ReplyFrame s (changeRun r s) :=
  ⟨rfl, rfl, rfl, rfl, rfl, rfl, rfl, rfl, rfl⟩

theorem requestMark_replyFrame (h : Hazard) (age : Nat) (s : State) : ReplyFrame s (requestMark h age s) :=
  (requestMark_mapOnly h age s).replyFrame (requestMark_record (by decide) (by decide) h age)

theorem sendZero_replyFrame (s : State) : ReplyFrame s (sendZero s) := by
  rw [sendZero_eq]
  exact ⟨rfl, rfl, rfl, rfl, rfl, rfl, rfl, rfl, rfl⟩

theorem raiseHazard_replyFrame (h : Hazard) (n : Option Nat) (s : State) : ReplyFrame s (raiseHazard h n s) :=
  raise_replyFrame (by cases h <;> simp [Hazard.event]) _ s

theorem haltFor_replyFrame (h : Hazard) (s : State) : ReplyFrame s (haltFor h s) :=
  (show ReplyFrame s (withPhase (.halt h) (enterDiscarding .reflex s)) from
    ⟨rfl, rfl, rfl, rfl, rfl, rfl, rfl, rfl, rfl⟩).trans (sendZero_replyFrame _)

theorem fire_replyFrame (h : Hazard) (age : Nat) (entry : Option Nat) (s : State) : ReplyFrame s (fire h age entry s).1 := by
  rcases fire_cases h age entry s with ⟨d, -, e⟩ | ⟨-, -, e⟩ | ⟨-, -, e⟩ | ⟨-, -, e⟩ | ⟨-, -, e⟩ <;> rw [e]
  · exact (raiseHazard_replyFrame h _ s).trans (requestMark_replyFrame h age _)
  · exact raiseHazard_replyFrame h _ s
  · have hcause := (haltFor_replyFrame h s).trans (raiseHazard_replyFrame h (some (discardCount s)) _)
    simp only [enterReflex]
    split
    · exact (hcause.trans (raise_replyFrame (by decide) _ _)).trans (requestMark_replyFrame h age _)
    · exact hcause.trans (requestMark_replyFrame h age _)
  · exact ((((sendZero_replyFrame s).trans (changeRun_replyFrame .hold _)).trans (raiseHazard_replyFrame h none _)).trans
      (raise_replyFrame (by decide) _ _)).trans (requestMark_replyFrame h age _)
  · exact .refl s

theorem stallInput_replyFrame (left right : Bool) (s : State) : ReplyFrame s (stallInput left right s) := by
  have harmed (a : Armed) : ReplyFrame s (withArmed a s) := ⟨rfl, rfl, rfl, rfl, rfl, rfl, rfl, rfl, rfl⟩
  simp only [stallInput]
  split
  · split
    · exact (harmed _).trans (fire_replyFrame _ _ _ _)
    · exact harmed _
  · exact harmed _

theorem readAheadFrom_windowOnly (before : Cell) (s : State) : WindowOnly s (readAheadFrom before s) := by
  unfold readAheadFrom
  split
  · exact readAhead_windowOnly s
  · rfl

theorem readAheadFrom_record {j : EventKind} (h : j ≠ .windowFull) (before : Cell) (s : State) :
    (readAheadFrom before s).evu.record j = s.evu.record j := by
  unfold readAheadFrom
  split
  · exact requests_record h _
  · rfl

theorem segmentTravel_replyFrame (figure : Nat) (s : State) : ReplyFrame s (segmentTravel figure s) := by
  unfold segmentTravel
  split
  · split
    · simp only [progressSegment, completeSegment]
      split
      · split
        · exact ⟨rfl, rfl, rfl, rfl, rfl, rfl, rfl, rfl, rfl⟩
        split
        · exact ⟨rfl, rfl, rfl, rfl, rfl, rfl, rfl, rfl, raise_record_of_ne (by decide) _⟩
        · unfold takeHead
          split <;> exact ⟨rfl, rfl, rfl, rfl, rfl, rfl, rfl, rfl, rfl⟩
      · exact ⟨rfl, rfl, rfl, rfl, rfl, rfl, rfl, rfl, rfl⟩
    · exact .refl s
  · exact .refl s

theorem backOffTravel_replyFrame (figure : Nat) (s : State) : ReplyFrame s (backOffTravel figure s) := by
  unfold backOffTravel
  split
  · split <;> exact ⟨rfl, rfl, rfl, rfl, rfl, rfl, rfl, rfl, rfl⟩
  · exact .refl s
  · exact .refl s

theorem reverseTravel_replyFrame (figure : Nat) (s : State) : ReplyFrame s (reverseTravel figure s) := by
  unfold reverseTravel
  split
  · exact .refl s
  split
  · split <;> exact ⟨rfl, rfl, rfl, rfl, rfl, rfl, rfl, rfl, rfl⟩
  split
  · split <;> exact ⟨rfl, rfl, rfl, rfl, rfl, rfl, rfl, rfl, rfl⟩
  · exact .refl s

theorem suspectTravel_replyFrame (figure : Nat) (s : State) : ReplyFrame s (suspectTravel figure s) :=
  ⟨rfl, rfl, rfl, rfl, rfl, rfl, rfl, rfl, rfl⟩

theorem handTravel_replyFrame (figure : Nat) (s : State) : ReplyFrame s (handTravel figure s) :=
  (((segmentTravel_replyFrame figure s).trans (backOffTravel_replyFrame figure _)).trans
    (suspectTravel_replyFrame figure _)).trans (reverseTravel_replyFrame figure _)

end

/-! ## The position and its history (R22, R23, R26) -/

theorem axisMove_eq (ticks : Int) (tickLength : Nat) (factor : Int) :
    axisMove ticks tickLength factor = (ticks * tickLength * factor + 2 ^ 20) / 2 ^ 21 := by
  simp [axisMove, halfUp]

/-- The x of a reply's move, before it is held to the level (R22). -/
def movedX (ticks : Int) (s : State) : Int :=
  s.pot.pose.x + (ticks * s.tbs.cal.tickLength * cosine s.pot.pose.heading + 2 ^ 20) / 2 ^ 21

/-- The y of a reply's move, before it is held to the level (R22). -/
def movedY (ticks : Int) (s : State) : Int :=
  s.pot.pose.y + (ticks * s.tbs.cal.tickLength * sine s.pot.pose.heading + 2 ^ 20) / 2 ^ 21

/-- The pose that a reply's move leaves (R23). -/
def movedPose (ticks : Int) (s : State) : Pose :=
  { s.pot.pose with
    x := (max 0 (min 819199 (movedX ticks s))).toNat, y := (max 0 (min 819199 (movedY ticks s))).toNat }

/-- An axis of a reply's move was held to the level (R23). -/
def AtEdge (ticks : Int) (s : State) : Prop :=
  movedX ticks s < 0 ∨ 819199 < movedX ticks s ∨ movedY ticks s < 0 ∨ 819199 < movedY ticks s

theorem movePosition_eq (ticks : Int) (s : State) : movePosition ticks s =
    if (offLevel (movedX ticks s) || offLevel (movedY ticks s)) = true then
      raise .poseEdge .edgeOdometry (withPose (movedPose ticks s) s)
    else withPose (movedPose ticks s) s := by
  simp only [movePosition, axisMove_eq]
  rfl

theorem offLevel_or_iff {ticks : Int} {s : State} :
    (offLevel (movedX ticks s) || offLevel (movedY ticks s)) = true ↔ AtEdge ticks s := by
  simp only [offLevel, Bool.or_eq_true, decide_eq_true_eq, AtEdge, or_assoc]
  rfl

section
variable {ticks : Int} {s : State}

theorem movePosition_of_edge (h : AtEdge ticks s) :
    movePosition ticks s = raise .poseEdge .edgeOdometry (withPose (movedPose ticks s) s) := by
  rw [movePosition_eq, if_pos (offLevel_or_iff.mpr h)]

theorem movePosition_of_inside (h : ¬AtEdge ticks s) : movePosition ticks s = withPose (movedPose ticks s) s := by
  rw [movePosition_eq, if_neg (mt offLevel_or_iff.mp h)]

theorem appendEntry_eq (ring : List HistoryEntry) (e : HistoryEntry) :
    appendEntry ring e = (if ring.length < 32 then ring else ring.tail) ++ [e] := by
  unfold appendEntry
  split <;> rfl

theorem appendEntry_eq_drop {ring : List HistoryEntry} (h : ring.length ≤ 32) (e : HistoryEntry) :
    appendEntry ring e = (ring ++ [e]).drop (ring.length + 1 - 32) := by
  unfold appendEntry
  split
  · rw [show ring.length + 1 - 32 = 0 by omega, List.drop_zero]
  · rw [show ring.length + 1 - 32 = 1 by omega, List.drop_one, List.tail_append_of_ne_nil]
    rintro rfl
    simp at *

/-- The state once a reply has restarted the watch, moved the position and appended its history entry. -/
def replied (ticks : Int) (s : State) : State := appendHistory (movePosition ticks (driveUp s))

/-- The history entry of a reply (R26). -/
def repliedEntry (ticks : Int) (s : State) : HistoryEntry :=
  { stamp := s.pot.timeCount, x := (movedPose ticks s).x, y := (movedPose ticks s).y, heading := s.pot.pose.heading }

/-- The reply's state when no axis was held. -/
def repliedInside (ticks : Int) (s : State) : State := { s with
  pot := { s.pot with pose := movedPose ticks s, history := appendEntry s.pot.history (repliedEntry ticks s) }
  dli := { s.dli with watch := .up s.pot.timeCount } }

theorem replied_of_inside (h : ¬AtEdge ticks s) : replied ticks s = repliedInside ticks s := by
  rw [replied, movePosition_of_inside (s := driveUp s) h]
  rfl

theorem replied_of_edge (h : AtEdge ticks s) : replied ticks s = raise .poseEdge .edgeOdometry (repliedInside ticks s) := by
  rw [replied, movePosition_of_edge (s := driveUp s) h]
  rfl

/-- What a reply's move leaves in every block but the Event Unit and the waiting EVENT frames. -/
theorem replied_eq (ticks : Int) (s : State) : replied ticks s =
    { repliedInside ticks s with evu := (replied ticks s).evu, pli := (replied ticks s).pli } := by
  by_cases h : AtEdge ticks s
  · rw [replied_of_edge h]
    rfl
  · rw [replied_of_inside h]

theorem replied_pot (ticks : Int) (s : State) : (replied ticks s).pot = (repliedInside ticks s).pot := by rw [replied_eq]
theorem replied_dli (ticks : Int) (s : State) : (replied ticks s).dli = (repliedInside ticks s).dli := by rw [replied_eq]
theorem replied_tbs (ticks : Int) (s : State) : (replied ticks s).tbs = s.tbs := by rw [replied_eq]; rfl
theorem replied_mru (ticks : Int) (s : State) : (replied ticks s).mru = s.mru := by rw [replied_eq]; rfl
theorem replied_mgt (ticks : Int) (s : State) : (replied ticks s).mgt = s.mgt := by rw [replied_eq]; rfl
theorem replied_rct (ticks : Int) (s : State) : (replied ticks s).rct = s.rct := by rw [replied_eq]; rfl
theorem replied_rfx (ticks : Int) (s : State) : (replied ticks s).rfx = s.rfx := by rw [replied_eq]; rfl
theorem replied_dau (ticks : Int) (s : State) : (replied ticks s).dau = s.dau := by rw [replied_eq]; rfl
theorem replied_snp (ticks : Int) (s : State) : (replied ticks s).snp = s.snp := by rw [replied_eq]; rfl

end

/-- The state that a reply's travel leaves, before its stall flags are judged (R25). -/
def travelled (ticks : Int) (s : State) : State :=
  readAheadFrom s.pot.pose.centre (handTravel (ticks.natAbs * s.tbs.cal.tickLength) (replied ticks s))

theorem exec_odometryReply {tL tR : Int} {s : State} (hs : s.rct.state ≠ .loading) (hL : -2047 ≤ tL ∧ tL ≤ 2047)
    (hR : -2047 ≤ tR ∧ tR ≤ 2047) (left right : Bool) :
    exec (.odometryReply tL tR left right) s = .next (arbitrate (stallInput left right (travelled (tL + tR) s))) :=
  congrArg Host.Outcome.next (takeLine_of_taken hs (odometryReply_wellFormed_iff.mpr ⟨hL, hR⟩) _)

/-- Settles O23. -/
theorem odometryMovesPositionAndHistory : Obligations.OdometryMovesPositionAndHistory := by
  intro tL tR left right s hs hL hR hhist x y edge
  have hread := readAheadFrom_windowOnly s.pot.pose.centre (handTravel ((tL + tR).natAbs * s.tbs.cal.tickLength) (replied (tL + tR) s))
  have hframe : ReplyFrame (replied (tL + tR) s) (stallInput left right (travelled (tL + tR) s)) :=
    ((handTravel_replyFrame _ _).trans (hread.mapOnly.replyFrame (readAheadFrom_record (by decide) _ _))).trans
      (stallInput_replyFrame left right _)
  refine ⟨_, exec_odometryReply hs hL hR left right, ?_, ?_, ?_, ?_, fun h => ?_, fun h => ?_, ?_, ?_, ?_, ?_, ?_, ?_⟩
  · rw [hframe.pot, replied_pot]
    rfl
  · rw [hframe.pot, replied_pot, ← appendEntry_eq_drop hhist]
    rfl
  · rw [hframe.pot, replied_pot]
    rfl
  · rw [hframe.watch, replied_dli]
    rfl
  · rw [Flagged, hframe.poseEdge, replied_of_edge h]
    exact raise_flagged _ _ _
  · rw [hframe.poseEdge, replied_of_inside h]
    rfl
  · rw [hframe.tbs, replied_tbs]
  · rw [hframe.snp, replied_snp]
  · rw [hframe.period, replied_mgt]
  · rw [hframe.result, replied_mgt]
  · rw [hframe.modeQueue, replied_rct]
  · rw [hframe.creep, replied_rct]

/-! ## A reply with nothing measured (R46, R47) -/

theorem stallInput_false (s : State) :
    stallInput false false s = withArmed { s.rfx.armed with stallLeft := true, stallRight := true } s := by
  unfold stallInput
  cases mayFire s <;> simp [rearm, afterArrival, sideOf]

/-- No measure runs: nothing takes the travel. -/
structure Unmeasured (s : State) : Prop where
  current : s.mgt.current = none
  phase : s.rfx.phase = .none
  suspects : s.rfx.suspects = noSuspects
  reverse : s.dau.reverse = none

theorem suspectTravel_of_none {s : State} (h : s.rfx.suspects = noSuspects) (figure : Nat) : suspectTravel figure s = s := by
  have : s.rfx.suspects.map (Option.map fun m => m.add figure) = s.rfx.suspects := by rw [h]; rfl
  rw [suspectTravel, this]

theorem segmentTravel_of_none {s : State} (h : s.mgt.current = none) (figure : Nat) : segmentTravel figure s = s := by
  simp only [segmentTravel, h]

theorem segmentTravel_of_not_moving {s : State} (h : ¬SegmentState s.rct.state) (figure : Nat) : segmentTravel figure s = s := by
  unfold segmentTravel
  split
  · exact if_neg (mt moving_iff.mp h)
  · rfl

theorem backOffTravel_of_none {s : State} (h : s.rfx.phase = .none) (figure : Nat) : backOffTravel figure s = s := by
  simp only [backOffTravel, h]

theorem reverseTravel_of_none {s : State} (h : s.dau.reverse = none) (figure : Nat) : reverseTravel figure s = s := by
  simp only [reverseTravel, h]

theorem handTravel_of_unmeasured {s : State} (h : Unmeasured s) (figure : Nat) : handTravel figure s = s := by
  rw [handTravel, segmentTravel_of_none h.current, backOffTravel_of_none h.phase, suspectTravel_of_none h.suspects,
    reverseTravel_of_none h.reverse]

theorem request_withArmed (k : TileKey) (a : Armed) (s : State) : request k (withArmed a s) = withArmed a (request k s) := by
  by_cases h : (∃ i, (s.twn.slot i).key? = some k) ∨ 6 ≤ s.twn.pendingRequests
  · rw [request_of_held h, request_of_held (s := withArmed a s) h]
  · rw [not_or, not_exists, Nat.not_le] at h
    obtain ⟨hk, hp⟩ := h
    cases hi : s.twn.slotToTake s.pot.pose with
    | some i =>
      rw [request_of_slot hk hp hi, request_of_slot (s := withArmed a s) hk hp hi]
      rfl
    | none =>
      rw [request_of_no_slot hk hp hi, request_of_no_slot (s := withArmed a s) hk hp hi]
      rfl

theorem requests_withArmed (keys : List TileKey) (a : Armed) (s : State) :
    keys.foldl (fun t k => request k t) (withArmed a s) = withArmed a (keys.foldl (fun t k => request k t) s) := by
  induction keys generalizing s with
  | nil => rfl
  | cons k rest ih => rw [List.foldl_cons, List.foldl_cons, request_withArmed, ih]

/-- The neighbour of a tile over an edge, as a list of at most one key. -/
theorem neighbour_toList (k : TileKey) (dc dr : Int) : (neighbour k dc dr).toList =
    ([(dc, dr)].filter fun d => 0 ≤ (k.col : Int) + d.1 ∧ (k.col : Int) + d.1 ≤ 63 ∧ 0 ≤ (k.row : Int) + d.2 ∧
      (k.row : Int) + d.2 ≤ 63).map
      fun d => { level := k.level, col := ((k.col : Int) + d.1).toNat, row := ((k.row : Int) + d.2).toNat } := by
  by_cases h : 0 ≤ (k.col : Int) + dc ∧ (k.col : Int) + dc ≤ 63 ∧ 0 ≤ (k.row : Int) + dr ∧ (k.row : Int) + dr ≤ 63
  · simp [neighbour, h]
  · simp [neighbour, h, and_assoc]

theorem edgeStep_toList (n : Nat) : (edgeStep n).toList = if n ≤ 2 then [-1] else if 13 ≤ n then [1] else [] := by
  unfold edgeStep
  split
  · rfl
  split <;> rfl

/-- The steps of read-ahead over the edges near a cell: in x, in y, diagonally (R46, R47). -/
theorem readAheadKeys_eq (level : Nat) (c : Cell) : readAheadKeys level c =
    (((edgeStep (c.col % 16)).toList.map (fun d => (d, 0)) ++ (edgeStep (c.row % 16)).toList.map (fun d => (0, d)) ++
      (edgeStep (c.col % 16)).toList.flatMap (fun d => (edgeStep (c.row % 16)).toList.map (fun e => (d, e)))).filter
        (fun (d : Int × Int) => 0 ≤ ((c.col / 16 : Nat) : Int) + d.1 ∧ ((c.col / 16 : Nat) : Int) + d.1 ≤ 63 ∧
          0 ≤ ((c.row / 16 : Nat) : Int) + d.2 ∧ ((c.row / 16 : Nat) : Int) + d.2 ≤ 63)).map
      (fun (d : Int × Int) =>
        { level := level, col := (((c.col / 16 : Nat) : Int) + d.1).toNat, row := (((c.row / 16 : Nat) : Int) + d.2).toNat }) := by
  have hone (dc dr : Int) := neighbour_toList (c.key level) dc dr
  simp only [Cell.key] at hone
  simp only [readAheadKeys, Cell.key, List.filter_append, List.map_append]
  congr 1
  · congr 1
    · cases edgeStep (c.col % 16) with
      | none => rfl
      | some d => exact hone d 0
    · cases edgeStep (c.row % 16) with
      | none => rfl
      | some d => exact hone 0 d
  · cases edgeStep (c.col % 16) with
    | none => rfl
    | some d =>
      cases edgeStep (c.row % 16) with
      | none => rfl
      | some e => exact hone d e

theorem centre_ne_iff {p q : Pose} : p.centre ≠ q.centre ↔ p.x / 800 ≠ q.x / 800 ∨ p.y / 800 ≠ q.y / 800 := by
  simp only [Pose.centre, cellOf, ne_eq, Cell.mk.injEq]
  omega

theorem readAheadFrom_of_moved {before : Cell} {s : State} (hv : s.pot.pose.valid = true) (hc : s.pot.pose.centre ≠ before) :
    readAheadFrom before s = readAhead s := if_pos (by simp [hv, hc])

theorem readAheadFrom_of_same {before : Cell} {s : State} (h : s.pot.pose.valid = false ∨ s.pot.pose.centre = before) :
    readAheadFrom before s = s := if_neg (by rcases h with h | h <;> simp [h])

/-- Settles O24. -/
theorem replyReadsAheadOnCellChange : Obligations.ReplyReadsAheadOnCellChange := by
  intro tL tR s hs hL hR hcurrent hphase hsuspects hreverse x y place entry moved edge
  let armed : Armed := { s.rfx.armed with stallLeft := true, stallRight := true }
  have hunmeasured : Unmeasured (replied (tL + tR) s) :=
    ⟨by rw [replied_mgt]; exact hcurrent, by rw [replied_rfx]; exact hphase, by rw [replied_rfx]; exact hsuspects,
      by rw [replied_dau]; exact hreverse⟩
  have hpose : (replied (tL + tR) s).pot.pose = place := by rw [replied_pot]; rfl
  have hmoved : moved = withArmed armed (repliedInside (tL + tR) s) := by
    simp only [moved, ← appendEntry_eq]
    rfl
  refine ⟨withArmed armed (replied (tL + tR) s),
    if s.pot.pose.valid = true ∧ place.centre ≠ s.pot.pose.centre then readAheadKeys place.level place.centre else [], ?_,
    fun h => by rw [hmoved, replied_of_inside h], fun h => by rw [hmoved, replied_of_edge h]; rfl, fun h => if_neg ?_, fun h => ?_⟩
  · have hread : travelled (tL + tR) s = (if s.pot.pose.valid = true ∧ place.centre ≠ s.pot.pose.centre then
        readAheadKeys place.level place.centre else []).foldl (fun t k => request k t) (replied (tL + tR) s) := by
      rw [travelled, handTravel_of_unmeasured hunmeasured]
      have hv : place.valid = s.pot.pose.valid := rfl
      split
      next h => rw [readAheadFrom_of_moved (by rw [hpose]; exact h.1) (by rw [hpose]; exact h.2), readAhead, hpose]
      next h =>
        rw [readAheadFrom_of_same]
        · rw [List.foldl_nil]
        · rw [hpose, hv]
          by_cases hval : s.pot.pose.valid = true
          · exact .inr (by simpa [hval] using h)
          · exact .inl (by simpa using hval)
    have harmed : (travelled (tL + tR) s).rfx.armed = s.rfx.armed := by
      rw [travelled, handTravel_of_unmeasured hunmeasured, (readAheadFrom_windowOnly _ _).rfx, replied_rfx]
    rw [exec_odometryReply hs hL hR, stallInput_false, harmed, requests_withArmed, ← hread]
  · rw [centre_ne_iff]
    rintro ⟨hv, hc⟩
    rcases h with h | ⟨hx, hy⟩
    · rw [hv] at h
      cases h
    · exact hc.elim (fun hc => hc hx) fun hc => hc hy
  · intro col row margin steps
    rw [if_pos ⟨h.1, centre_ne_iff.mpr h.2⟩, readAheadKeys_eq, edgeStep_toList, edgeStep_toList]
    rfl

end Sys2Proof.Machine
end

section
/-! Where the travel of a reply goes, and what a firing, the stall flags and a brush status do (R24, R83, R84, R123 to R126, R128,
R131, R132, R134, R137, R139, R149, R154, R160, R161). -/

namespace Sys2Proof.Machine

/-! ## The completion of a segment (R83, R84) -/

theorem complete_iff {c : CurrentSegment} : c.complete = true ↔
    (c.segment.kind = .dist ∧ 2048 * c.segment.limit ≤ c.travel) ∨ (c.segment.kind = .time ∧ c.segment.limit ≤ c.elapsed) := by
  unfold CurrentSegment.complete
  cases c.segment.kind <;> simp

section
variable {s : State} {c : CurrentSegment} {g : Segment} {rest : List Segment}

theorem segmentTravel_of_current (hm : SegmentState s.rct.state) (hc : s.mgt.current = some c) (figure : Nat) :
    segmentTravel figure s = progressSegment { c with travel := c.travel + figure } s := by
  simp only [segmentTravel, hc, moving_iff.mpr hm, if_true]

theorem progressSegment_of_incomplete (h : ¬c.complete = true) :
    progressSegment c s = { s with mgt := { s.mgt with current := some c } } := if_neg h

theorem progressSegment_of_complete (h : c.complete = true) : progressSegment c s = completeSegment c.segment s := if_pos h

theorem completeSegment_of_step (h : s.rct.state = .step) : completeSegment g s = { s with
    mgt := { s.mgt with current := none, completed := (s.mgt.completed + 1) % 65536 }
    rct := { s.rct with state := .hold, pendingStep := false }
    rfx := { s.rfx with phase := .none, suspects := noSuspects } } := by
  rw [completeSegment, if_pos h]
  exact changeRun_hold_of_not_docking (by rw [h]; rfl)

theorem completeSegment_of_starved (h : s.rct.state ≠ .step) (hq : s.mgt.queue = []) : completeSegment g s =
    raise .segmentsEmpty (.tag g.tag)
      { s with mgt := { s.mgt with current := none, completed := (s.mgt.completed + 1) % 65536, starved := true } } := by
  rw [completeSegment, if_neg h, if_pos (by rw [hq]; rfl)]

theorem completeSegment_of_next {next : Segment} (h : s.rct.state ≠ .step) (hq : s.mgt.queue = next :: rest) :
    completeSegment g s = { s with mgt := { s.mgt with
      queue := rest, current := some { segment := next, travel := 0, elapsed := 0 }
      completed := (s.mgt.completed + 1) % 65536, starved := false } } := by
  rw [completeSegment, if_neg h, if_neg (by rw [hq]; simp)]
  simp only [takeHead, hq]
  rfl

/-- A completion that leaves the run state leaves the Reflex Unit, and none touches the DAU's record of a segment state. -/
theorem completeSegment_rfx (g : Segment) (s : State) :
    ((completeSegment g s).rct.state = s.rct.state → (completeSegment g s).rct = s.rct ∧ (completeSegment g s).rfx = s.rfx) ∧
      (completeSegment g s).dau = s.dau := by
  by_cases h : s.rct.state = .step
  · rw [completeSegment_of_step h]
    exact ⟨fun hstate => by simp [h] at hstate, rfl⟩
  · cases hq : s.mgt.queue with
    | nil => rw [completeSegment_of_starved h hq]; exact ⟨fun _ => ⟨rfl, rfl⟩, rfl⟩
    | cons next rest => rw [completeSegment_of_next h hq]; exact ⟨fun _ => ⟨rfl, rfl⟩, rfl⟩

theorem completeSegment_state (h : s.rct.state ≠ .step) : (completeSegment g s).rct.state = s.rct.state := by
  cases hq : s.mgt.queue with
  | nil => rw [completeSegment_of_starved h hq]; rfl
  | cons next rest => rw [completeSegment_of_next h hq]

theorem completeSegment_phase (h : s.rfx.phase = .none) (g : Segment) : (completeSegment g s).rfx.phase = .none := by
  by_cases hstep : s.rct.state = .step
  · rw [completeSegment_of_step hstep]
  · cases hq : s.mgt.queue with
    | nil => rw [completeSegment_of_starved hstep hq]; exact h
    | cons next rest => rw [completeSegment_of_next hstep hq]; exact h

end

/-! ## Where the travel goes (R24) -/

/-- Under the laws of phases and of the DAU's items, a back-off runs in REFLEX alone and a reverse measure in APPROACH or
UNDOCKING alone. -/
theorem measures_of_laws {s : State} (hp : PhaseLaw s) (hd : DockLaw s) :
    (s.rct.state ≠ .reflex → s.rfx.phase = .none) ∧
      (s.rct.state ≠ .approach → s.rct.state ≠ .undocking → s.dau.reverse = none) := by
  refine ⟨fun h => by_contra fun hne => h (hp.reflex.mp hne), fun ha hu => ?_⟩
  by_contra hne
  rcases hd.reverse.mp (Option.isSome_iff_ne_none.mpr hne) with h | h
  · exact ha (hp.approach.mp (by rw [h]; simp))
  · exact hu h

section
variable {s : State} {figure : Nat}

theorem segmentTravel_frame (hm : SegmentState s.rct.state) (h : s.rfx.phase = .none) :
    ((segmentTravel figure s).rct.state = s.rct.state →
      (segmentTravel figure s).rct = s.rct ∧ (segmentTravel figure s).rfx = s.rfx) ∧
      (segmentTravel figure s).dau = s.dau ∧ (segmentTravel figure s).rfx.phase = .none := by
  cases hc : s.mgt.current with
  | none => rw [segmentTravel_of_none hc]; exact ⟨fun _ => ⟨rfl, rfl⟩, rfl, h⟩
  | some c =>
    rw [segmentTravel_of_current hm hc]
    unfold progressSegment
    split
    · exact ⟨(completeSegment_rfx _ s).1, (completeSegment_rfx _ s).2, completeSegment_phase h _⟩
    · exact ⟨fun _ => ⟨rfl, rfl⟩, rfl, h⟩

/-- In a state that runs segments the travel goes to the current segment and the suspicions. -/
theorem handTravel_of_segments (hp : PhaseLaw s) (hd : DockLaw s) (hm : SegmentState s.rct.state) :
    handTravel figure s = suspectTravel figure (segmentTravel figure s) := by
  have hne : s.rct.state ≠ .reflex ∧ s.rct.state ≠ .approach ∧ s.rct.state ≠ .undocking := by
    rcases hm with h | h | h | h <;> simp [h]
  obtain ⟨hphase, hreverse⟩ := measures_of_laws hp hd
  obtain ⟨-, hdau, hnone⟩ := segmentTravel_frame (figure := figure) hm (hphase hne.1)
  rw [handTravel, backOffTravel_of_none hnone, reverseTravel_of_none]
  rw [suspectTravel_dau, hdau, hreverse hne.2.1 hne.2.2]

theorem handTravel_of_current {c : CurrentSegment} (hp : PhaseLaw s) (hd : DockLaw s) (hm : SegmentState s.rct.state)
    (hc : s.mgt.current = some c) :
    handTravel figure s = suspectTravel figure (progressSegment { c with travel := c.travel + figure } s) := by
  rw [handTravel_of_segments hp hd hm, segmentTravel_of_current hm hc]

/-- A DIST segment whose sum reaches its limit completes (R84). -/
theorem handTravel_of_complete {c : CurrentSegment} (hp : PhaseLaw s) (hd : DockLaw s) (hm : SegmentState s.rct.state)
    (hc : s.mgt.current = some c) (hk : c.segment.kind = .dist) (hreached : 2048 * c.segment.limit ≤ c.travel + figure) :
    handTravel figure s = suspectTravel figure (completeSegment c.segment s) := by
  have hcomplete : ({ c with travel := c.travel + figure } : CurrentSegment).complete = true := complete_iff.mpr (.inl ⟨hk, hreached⟩)
  rw [handTravel_of_current hp hd hm hc, progressSegment_of_complete hcomplete]

/-- In REFLEX the travel goes to the back-off. -/
theorem handTravel_of_reflex (hp : PhaseLaw s) (hd : DockLaw s) (hr : s.rct.state = .reflex) :
    handTravel figure s = suspectTravel figure (backOffTravel figure s) := by
  have hreverse := (measures_of_laws hp hd).2 (by simp [hr]) (by simp [hr])
  have hdau : (backOffTravel figure s).dau.reverse = none := by
    unfold backOffTravel
    split
    · split
      · rw [endBackOff, changeRun_hold_of_not_docking (by rw [hr]; rfl)]
        exact hreverse
      · exact hreverse
    · exact hreverse
    · exact hreverse
  rw [handTravel, segmentTravel_of_not_moving (by simp [hr, SegmentState]), reverseTravel_of_none]
  exact hdau

/-- In every other state it goes to the suspicions and the reverse measure. -/
theorem handTravel_of_other (hp : PhaseLaw s) (hd : DockLaw s) (hm : ¬SegmentState s.rct.state) (hr : s.rct.state ≠ .reflex) :
    handTravel figure s = reverseTravel figure (suspectTravel figure s) := by
  rw [handTravel, segmentTravel_of_not_moving hm, backOffTravel_of_none ((measures_of_laws hp hd).1 hr)]

theorem backOffTravel_of_reached {h : Hazard} {m : Measure} (hr : s.rct.state = .reflex) (hb : s.rfx.phase = .back h m)
    (hf : 2048 * s.tbs.cal.backOffDistance ≤ m.travel + figure) : backOffTravel figure s = { s with
      rct := { s.rct with state := .hold, pendingStep := false }
      rfx := { s.rfx with phase := .none, suspects := noSuspects } } := by
  simp only [backOffTravel, hb, hf, if_true]
  exact changeRun_hold_of_not_docking (by rw [hr]; rfl)

theorem backOffTravel_of_short {h : Hazard} {m : Measure} (hb : s.rfx.phase = .back h m)
    (hf : m.travel + figure < 2048 * s.tbs.cal.backOffDistance) :
    backOffTravel figure s = withPhase (.back h { m with travel := m.travel + figure }) s := by
  simp only [backOffTravel, hb, Nat.not_le.mpr hf, if_false]
  rfl

theorem backOffTravel_of_halt {h : Hazard} (hb : s.rfx.phase = .halt h) : backOffTravel figure s = s := by
  simp only [backOffTravel, hb]

theorem reverseTravel_of_bumpReverse {m : Measure} (hp : s.dau.phase = .bumpReverse) (hm : s.dau.reverse = some m) :
    reverseTravel figure s =
      if 2048 * s.tbs.cal.backOffDistance ≤ m.travel + figure then endBumpReverse s
      else withDock { s.dau with reverse := some { m with travel := m.travel + figure } } s := by
  simp only [reverseTravel, hm, hp, if_true]
  rfl

theorem reverseTravel_of_undocking {m : Measure} (hu : s.rct.state = .undocking) (hp : s.dau.phase ≠ .bumpReverse)
    (hm : s.dau.reverse = some m) : reverseTravel figure s =
      if 2048 * s.tbs.cal.undockDistance ≤ m.travel + figure then changeRun .hold s
      else withDock { s.dau with reverse := some { m with travel := m.travel + figure } } s := by
  simp only [reverseTravel, hm, hp, hu, if_false, if_true]
  rfl

/-- The reverse measure's holder changes the run state of UNDOCKING alone, and then drops the suspicions. -/
theorem reverseTravel_rfx (figure : Nat) (s : State) :
    (reverseTravel figure s).rct.state = s.rct.state →
      (reverseTravel figure s).rct = s.rct ∧ (reverseTravel figure s).rfx = s.rfx := by
  unfold reverseTravel
  split
  · exact fun _ => ⟨rfl, rfl⟩
  split
  · split <;> exact fun _ => ⟨rfl, rfl⟩
  split
  · split
    · rename_i hu _
      intro h
      rw [hu] at h
      cases h
    · exact fun _ => ⟨rfl, rfl⟩
  · exact fun _ => ⟨rfl, rfl⟩

theorem reverseTravel_mgt (figure : Nat) (s : State) : (reverseTravel figure s).mgt = s.mgt := by
  unfold reverseTravel
  split
  · rfl
  split
  · split <;> rfl
  split
  · split <;> rfl
  · rfl

theorem backOffTravel_mgt (figure : Nat) (s : State) : (backOffTravel figure s).mgt = s.mgt := by
  unfold backOffTravel
  split
  · split <;> rfl
  · rfl
  · rfl

theorem handTravel_mgt (figure : Nat) (s : State) : (handTravel figure s).mgt = (segmentTravel figure s).mgt := by
  rw [handTravel, reverseTravel_mgt, suspectTravel_mgt, backOffTravel_mgt]

/-- The back-off ends in HOLD at its distance, and else grows (R24, R128). -/
theorem handTravel_backOff {h : Hazard} {m : Measure} (hp : PhaseLaw s) (hd : DockLaw s) (hb : s.rfx.phase = .back h m) :
    (2048 * s.tbs.cal.backOffDistance ≤ m.travel + figure →
      (handTravel figure s).rfx.phase = .none ∧ (handTravel figure s).rct.state = .hold) ∧
    (m.travel + figure < 2048 * s.tbs.cal.backOffDistance →
      (handTravel figure s).rfx.phase = .back h { m with travel := m.travel + figure } ∧ (handTravel figure s).rct = s.rct) := by
  have hr : s.rct.state = .reflex := hp.reflex.mp (by rw [hb]; simp)
  rw [handTravel_of_reflex hp hd hr]
  refine ⟨fun hreached => ?_, fun hshort => ?_⟩
  · rw [backOffTravel_of_reached hr hb hreached]
    exact ⟨rfl, rfl⟩
  · rw [backOffTravel_of_short hb hshort]
    exact ⟨rfl, rfl⟩

/-- An approach bump's reverse ends in TRACK at its distance, and else grows (R24, R149). -/
theorem handTravel_bumpReverse {m : Measure} (hp : PhaseLaw s) (hd : DockLaw s) (hb : s.dau.phase = .bumpReverse)
    (hm : s.dau.reverse = some m) :
    (2048 * s.tbs.cal.backOffDistance ≤ m.travel + figure → (handTravel figure s).dau =
      { s.dau with phase := .track, beaconTimer := some s.pot.timeCount, reverse := none }) ∧
    (m.travel + figure < 2048 * s.tbs.cal.backOffDistance → (handTravel figure s).dau =
      { s.dau with reverse := some { m with travel := m.travel + figure } }) := by
  have ha : s.rct.state = .approach := hp.approach.mp (by rw [hb]; simp)
  rw [handTravel_of_other hp hd (by rw [ha]; simp [SegmentState]) (by rw [ha]; simp),
    reverseTravel_of_bumpReverse (s := suspectTravel figure s) hb hm, suspectTravel_tbs]
  exact ⟨fun hreached => by rw [if_pos hreached]; rfl, fun hshort => by rw [if_neg (Nat.not_le.mpr hshort)]; rfl⟩

/-- An undock ends in HOLD at its distance, and else grows (R24, R154). -/
theorem handTravel_undocking {m : Measure} (hp : PhaseLaw s) (hd : DockLaw s) (hu : s.rct.state = .undocking)
    (hm : s.dau.reverse = some m) :
    (2048 * s.tbs.cal.undockDistance ≤ m.travel + figure →
      (handTravel figure s).rct.state = .hold ∧ (handTravel figure s).dau.reverse = none) ∧
    (m.travel + figure < 2048 * s.tbs.cal.undockDistance → (handTravel figure s).rct = s.rct ∧
      (handTravel figure s).dau = { s.dau with reverse := some { m with travel := m.travel + figure } }) := by
  have hnone : s.dau.phase ≠ .bumpReverse := by
    intro h
    have ha := hp.approach.mp (by rw [h]; simp)
    rw [hu] at ha
    cases ha
  rw [handTravel_of_other hp hd (by rw [hu]; simp [SegmentState]) (by rw [hu]; simp),
    reverseTravel_of_undocking (s := suspectTravel figure s) hu hnone hm, suspectTravel_tbs]
  refine ⟨fun hreached => ?_, fun hshort => ?_⟩
  · rw [if_pos hreached, changeRun_hold_of_docking (show (suspectTravel figure s).rct.state.docking = true by
      rw [suspectTravel_rct, hu]; rfl)]
    exact ⟨rfl, rfl⟩
  · rw [if_neg (Nat.not_le.mpr hshort)]
    exact ⟨rfl, rfl⟩

/-- While the run state stays, every active suspicion's sum grows by the figure (R24, R134). -/
theorem handTravel_suspects (hp : PhaseLaw s) (hd : DockLaw s) (h : (handTravel figure s).rct.state = s.rct.state)
    (x : CliffSensor) : (handTravel figure s).rfx.suspects.get x =
      (s.rfx.suspects.get x).map fun m => { m with travel := m.travel + figure } := by
  have hmap (p : PerSensor (Option Measure)) : (p.map (Option.map fun m => m.add figure)).get x =
      (p.get x).map fun m => { m with travel := m.travel + figure } := PerSensor.get_map _ _ _
  by_cases hm : SegmentState s.rct.state
  · have hne : s.rct.state ≠ .reflex := by rcases hm with h | h | h | h <;> simp [h]
    rw [handTravel_of_segments hp hd hm] at h ⊢
    have hrfx := ((segmentTravel_frame hm ((measures_of_laws hp hd).1 hne)).1 h).2
    rw [← hmap, ← hrfx]
    rfl
  · by_cases hr : s.rct.state = .reflex
    · rw [handTravel_of_reflex hp hd hr] at h ⊢
      have hrfx : (backOffTravel figure s).rfx.suspects = s.rfx.suspects := by
        cases hb : s.rfx.phase with
        | none => rw [backOffTravel_of_none hb]
        | halt z => rw [backOffTravel_of_halt hb]
        | back z m =>
          rcases Nat.lt_or_ge (m.travel + figure) (2048 * s.tbs.cal.backOffDistance) with hf | hf
          · rw [backOffTravel_of_short hb hf]
            rfl
          · rw [backOffTravel_of_reached hr hb hf, hr] at h
            cases h
      rw [← hmap, ← hrfx]
      rfl
    · rw [handTravel_of_other hp hd hm hr] at h ⊢
      rw [(reverseTravel_rfx figure _ h).2, ← hmap]
      rfl

end

/-! ## The state that the travel leaves -/

section
variable {ticks : Int} {s : State}

theorem replied_phaseLaw (h : PhaseLaw s) (ticks : Int) : PhaseLaw (replied ticks s) := by
  constructor <;> simp only [replied_rfx, replied_rct, replied_dau]
  · exact h.reflex
  · exact h.approach
  · exact h.suspects
  · exact h.pendingStep

theorem replied_dockLaw (h : DockLaw s) (ticks : Int) : DockLaw (replied ticks s) := by
  constructor <;> simp only [replied_rfx, replied_rct, replied_dau]
  · exact h.timer
  · exact h.reverse
  · exact h.search
  · exact h.contact
  · exact h.wait
  · exact h.bumps

/-- The travel figure of a reply's ticks (R24). -/
def figureOf (ticks : Int) (s : State) : Nat := ticks.natAbs * s.tbs.cal.tickLength

theorem travelled_windowOnly (ticks : Int) (s : State) :
    WindowOnly (handTravel (figureOf ticks s) (replied ticks s)) (travelled ticks s) := readAheadFrom_windowOnly _ _

end

/-- Settles O25. -/
theorem replyAdvancesTheSegment : Obligations.ReplyAdvancesTheSegment := by
  intro tL tR c s hs hL hR hphase hdock hc travel
  let r := replied (tL + tR) s
  let figure := figureOf (tL + tR) s
  have hw := travelled_windowOnly (tL + tR) s
  have hcr : r.mgt.current = some c := by rw [replied_mgt]; exact hc
  have hseg (hm : SegmentState s.rct.state) : handTravel figure r = suspectTravel figure (progressSegment { c with travel := travel } r) :=
    handTravel_of_current (replied_phaseLaw hphase _) (replied_dockLaw hdock _) (by rw [replied_rct]; exact hm) hcr
  refine ⟨_, by rw [exec_odometryReply hs hL hR, stallInput_false], fun hm => ?_, fun hm hshort => ?_, ?_⟩
  · rw [withArmed_mgt, hw.mgt, handTravel_mgt, segmentTravel_of_not_moving (by rw [replied_rct]; exact hm), replied_mgt]
  · have hincomplete : ¬({ c with travel := travel } : CurrentSegment).complete = true := by
      rw [complete_iff]
      rintro (⟨hk, hreached⟩ | ⟨hk, hreached⟩) <;> rcases hshort with ⟨hk', hlt⟩ | ⟨hk', hlt⟩
      · rw [hk] at hk'; cases hk'
      · exact Nat.not_le.mpr hlt hreached
      · exact Nat.not_le.mpr hlt hreached
      · rw [hk] at hk'; cases hk'
    rw [withArmed_mgt, withArmed_rct, hw.mgt, hw.rct, hseg hm, progressSegment_of_incomplete hincomplete]
    exact ⟨by rw [← replied_mgt (tL + tR) s]; rfl, replied_rct _ _⟩
  · intro hm hk hreached count hcount
    have hcountEq : (s.mgt.completed + 1) % 65536 = count := by
      simp only [count]
      split <;> omega
    have hdone : handTravel figure r = suspectTravel figure (completeSegment c.segment r) :=
      handTravel_of_complete (replied_phaseLaw hphase _) (replied_dockLaw hdock _) (by rw [replied_rct]; exact hm) hcr hk hreached
    rw [withArmed_mgt, withArmed_rct, hw.mgt, hw.rct, hdone, suspectTravel_mgt, suspectTravel_rct]
    refine ⟨fun hstep => ?_, fun hstep => ⟨?_, fun hq => ?_, fun g rest hq => ?_⟩⟩
    · rw [completeSegment_of_step (by rw [replied_rct]; exact hstep)]
      simp only [replied_mgt, replied_rct, hcountEq, and_self, r]
    · rw [((completeSegment_rfx c.segment r).1 (completeSegment_state (by rw [replied_rct]; exact hstep))).1, replied_rct]
    · have hstarved := completeSegment_of_starved (g := c.segment) (s := r)
        (by rw [replied_rct]; exact hstep) (by rw [replied_mgt]; exact hq)
      refine ⟨by rw [hstarved, raise_mgt]; simp only [replied_mgt, hcountEq, r], ?_⟩
      have hrecord : (travelled (tL + tR) s).evu.record .segmentsEmpty = (completeSegment c.segment r).evu.record .segmentsEmpty := by
        rw [travelled, readAheadFrom_record (by decide)]
        exact (congrArg (fun t : State => t.evu.record .segmentsEmpty) hdone).trans rfl
      rw [hstarved] at hrecord
      unfold Flagged
      rw [withArmed_evu, hrecord]
      exact raise_flagged _ _ _
    · rw [completeSegment_of_next (by rw [replied_rct]; exact hstep) (by rw [replied_mgt]; exact hq)]
      simp only [replied_mgt, hcountEq, r]

/-- Settles O26. -/
theorem replyAdvancesTheOtherMeasures : Obligations.ReplyAdvancesTheOtherMeasures := by
  intro tL tR s hs hL hR hphase hdock figure
  have hw := travelled_windowOnly (tL + tR) s
  have hrp := replied_phaseLaw hphase (tL + tR)
  have hrd := replied_dockLaw hdock (tL + tR)
  have hrun := replied_rct (tL + tR) s
  have hdau := replied_dau (tL + tR) s
  have hrfx := replied_rfx (tL + tR) s
  have hcal : (replied (tL + tR) s).tbs.cal = s.tbs.cal := by rw [replied_tbs]
  have hnow : (replied (tL + tR) s).pot.timeCount = s.pot.timeCount := by rw [replied_pot]; rfl
  refine ⟨_, by rw [exec_odometryReply hs hL hR, stallInput_false], fun h m hback => ?_, fun m hbump hm => ?_,
    fun m hundock hm => ?_, fun hstate x => ?_⟩
  · have htravel := handTravel_backOff (figure := figure) hrp hrd (h := h) (m := m) (by rw [hrfx]; exact hback)
    rw [hcal, hrun] at htravel
    rw [withArmed_rfx, withArmed_rct, hw.rfx, hw.rct]
    exact htravel
  · have htravel := handTravel_bumpReverse (figure := figure) hrp hrd (m := m) (by rw [hdau]; exact hbump) (by rw [hdau]; exact hm)
    rw [hcal, hdau, hnow] at htravel
    rw [withArmed_dau, hw.dau]
    exact htravel
  · have htravel := handTravel_undocking (figure := figure) hrp hrd (m := m) (by rw [hrun]; exact hundock) (by rw [hdau]; exact hm)
    rw [hcal, hdau, hrun] at htravel
    rw [withArmed_dau, withArmed_rct, hw.dau, hw.rct]
    exact htravel
  · rw [withArmed_rct, hw.rct] at hstate
    rw [withArmed_rfx, hw.rfx, ← hrfx]
    exact handTravel_suspects hrp hrd (by rw [hrun]; exact hstate) x

end Sys2Proof.Machine
end

section
/-! What a firing, the stall flags and a brush status do (R123 to R126, R131, R132, R137, R139, R160, R161). -/

namespace Sys2Proof.Machine

/-! ## Firings by run state (R124, R126, R137) -/

theorem Hazard.event_eq (h : Hazard) : h.event = triggerEvent h := by cases h <;> rfl

/-- The states in which a firing makes a reflex entry (R124, R126). -/
def EntryState (r : RunState) : Prop := SegmentState r ∨ r = .undocking ∨ r = .approach

theorem discardCount_eq (s : State) : discardCount s = segmentCount s := by
  unfold discardCount segmentCount
  cases s.mgt.current <;> rfl

section
variable {s : State} (h : Hazard) (age : Nat)

theorem fire_of_entry_made (d : Nat) (s : State) : fire h age (some d) s = (laterInput age d s h, some d) := by
  unfold laterInput
  rw [← Hazard.event_eq]
  rfl

theorem fire_of_idle (hs : s.rct.state = .idle ∨ s.rct.state = .hold ∨ s.rct.state = .docked) :
    fire h age none s = (eventAlone s h, none) := by
  unfold eventAlone
  rw [← Hazard.event_eq]
  rcases hs with hs | hs | hs <;> simp only [fire, hs] <;> rfl

theorem fire_of_entryState (hs : EntryState s.rct.state) : fire h age none s = (enterReflex h age s, some (segmentCount s)) := by
  rw [← discardCount_eq]
  rcases hs with (hs | hs | hs | hs) | hs | hs <;> simp only [fire, hs]

theorem fire_of_reflex (hs : s.rct.state = .reflex) : fire h age none s = (abortReflex h age s, none) := by
  simp only [fire, hs]

theorem fire_of_no_fire (hs : mayFire s = false) : fire h age none s = (s, none) := by
  unfold mayFire at hs
  cases hr : s.rct.state <;> simp [hr] at hs <;> simp only [fire, hr]

theorem mayFire_eq_false_iff : mayFire s = false ↔ s.rct.state = .loading ∨ s.rct.state = .lifted ∨ s.rct.state = .fault := by
  unfold mayFire
  cases s.rct.state <;> simp

end

/-- The state that the changes of a reflex entry leave, before its events (R126). -/
def reflexEntered (h : Hazard) (s : State) : State := { s with
  rct := { s.rct with state := .reflex, pendingStep := false }
  mgt := { s.mgt with queue := [], current := none, starved := false }
  rfx := { s.rfx with phase := .halt h, suspects := noSuspects }
  dau := if s.rct.state = .approach ∨ s.rct.state = .undocking then idleDock else s.dau
  dli := { s.dli with
    lastSetpoints := (0, 0)
    leaving := leavingAfter (.setpoint 0 0) s.dli.leaving
    waiting := waitingAfter (.setpoint 0 0) s.dli.leaving s.dli.waiting } }

/-- The state that the changes of a second cause leave, before its events (R137). -/
def reflexAborted (s : State) : State := { s with
  rct := { s.rct with state := .hold, pendingStep := false }
  rfx := { s.rfx with phase := .none, suspects := noSuspects }
  dli := { s.dli with
    lastSetpoints := (0, 0)
    leaving := leavingAfter (.setpoint 0 0) s.dli.leaving
    waiting := waitingAfter (.setpoint 0 0) s.dli.leaving s.dli.waiting } }

section
variable {s : State} (h : Hazard) (age : Nat)

theorem haltFor_eq (hs : s.rct.state ≠ .docked) : haltFor h s = reflexEntered h s := by
  rw [haltFor, sendZero_eq, enterDiscarding, changeRun_eq]
  simp only [dau_of_docking (next := .reflex) rfl]
  have hdock : (s.rct.state = .approach ∨ s.rct.state = .docked ∨ s.rct.state = .undocking) ↔
      (s.rct.state = .approach ∨ s.rct.state = .undocking) := by simp [hs]
  simp only [discardSegments_rct, hdock]
  unfold reflexEntered
  simp [RunState.keepsSuspicion, RunState.moving, withPhase, discardSegments]

theorem enterReflex_of_not_approach (hs : SegmentState s.rct.state ∨ s.rct.state = .undocking) :
    enterReflex h age s = laterInput age (segmentCount s) (reflexEntered h s) h := by
  have hne : s.rct.state ≠ .approach ∧ s.rct.state ≠ .docked := by
    rcases hs with (hs | hs | hs | hs) | hs <;> simp [hs]
  rw [enterReflex, haltFor_eq h hne.2, discardCount_eq, raiseHazard, Hazard.event_eq]
  simp only [if_neg hne.1]
  rfl

theorem enterReflex_of_approach (hs : s.rct.state = .approach) :
    enterReflex h age s = requestMark h age (raise .dockFail (.dockFailure h.dockFailure)
      (raise (triggerEvent h) (.hazard h (some (segmentCount s))) (reflexEntered h s))) := by
  rw [enterReflex, haltFor_eq h (by rw [hs]; simp), discardCount_eq, raiseHazard, Hazard.event_eq]
  simp only [if_pos hs]

theorem abortReflex_eq (hs : s.rct.state = .reflex) : abortReflex h age s =
    requestMark h age (raise .reflexAborted (.cause h) (raise (triggerEvent h) (.hazard h none) (reflexAborted s))) := by
  have hne : (sendZero s).rct.state.docking = false := by
    rw [sendZero_rct, hs]
    rfl
  rw [abortReflex, raiseHazard, Hazard.event_eq, changeRun_hold_of_not_docking hne, sendZero_eq]
  rfl

end

/-- Settles O27. -/
theorem firingActsByRunState : Obligations.FiringActsByRunState := by
  intro h age s kind halted count entered aborted
  have hkind : kind = triggerEvent h := by cases h <;> rfl
  refine ⟨fun hs => ?_, fun hs => ?_, fun hs hbump => ?_, fun hs => ?_, fun hs => ?_⟩
  · rw [fire_of_idle h age hs, hkind]
    rfl
  · rw [fire_of_entryState h age (hs.imp_right .inl), enterReflex_of_not_approach h age hs, hkind]
    rfl
  · rw [fire_of_entryState h age (.inr (.inr hs)), enterReflex_of_approach h age hs, hkind]
    cases h <;> rfl
  · rw [fire_of_reflex h age hs, abortReflex_eq h age hs, hkind]
    rfl
  · rw [fire_of_no_fire h age (mayFire_eq_false_iff.mpr hs)]

/-! ## The stall flags (R131) -/

/-- What no travel changes: the armed flags, the marks' unit, and the run state but for a move that ends in HOLD. -/
structure TravelFrame (s t : State) : Prop where
  armed : t.rfx.armed = s.rfx.armed
  mru : t.mru = s.mru
  state : t.rct.state = s.rct.state ∨ t.rct.state = .hold

theorem TravelFrame.refl (s : State) : TravelFrame s s := ⟨rfl, rfl, .inl rfl⟩

theorem TravelFrame.trans {s t u : State} (h : TravelFrame s t) (h' : TravelFrame t u) : TravelFrame s u := by
  refine ⟨h'.armed.trans h.armed, h'.mru.trans h.mru, ?_⟩
  rcases h'.state with e | e
  · rw [e]
    exact h.state
  · exact .inr e

theorem mayFire_eq_true {s : State} (hs : s.rct.state ≠ .loading) (hl : s.rct.state ≠ .lifted) (hf : s.rct.state ≠ .fault) :
    mayFire s = true := by
  rw [← Bool.not_eq_false, mayFire_eq_false_iff]
  rintro (h | h | h)
  · exact hs h
  · exact hl h
  · exact hf h

theorem changeRun_hold_travelFrame (s : State) : TravelFrame s (changeRun .hold s) := by
  rw [changeRun_of_still rfl (by simp)]
  exact ⟨rfl, rfl, .inr rfl⟩

section
variable (figure : Nat) (s : State)

theorem completeSegment_travelFrame (g : Segment) : TravelFrame s (completeSegment g s) := by
  by_cases hstep : s.rct.state = .step
  · rw [completeSegment_of_step hstep]
    exact ⟨rfl, rfl, .inr rfl⟩
  · cases hq : s.mgt.queue with
    | nil => rw [completeSegment_of_starved hstep hq]; exact ⟨rfl, rfl, .inl rfl⟩
    | cons next rest => rw [completeSegment_of_next hstep hq]; exact ⟨rfl, rfl, .inl rfl⟩

theorem segmentTravel_travelFrame : TravelFrame s (segmentTravel figure s) := by
  by_cases hm : SegmentState s.rct.state
  · cases hc : s.mgt.current with
    | none => rw [segmentTravel_of_none hc]; exact .refl s
    | some c =>
      rw [segmentTravel_of_current hm hc, progressSegment]
      split
      · exact completeSegment_travelFrame _ _
      · exact ⟨rfl, rfl, .inl rfl⟩
  · rw [segmentTravel_of_not_moving hm]
    exact .refl s

theorem backOffTravel_travelFrame : TravelFrame s (backOffTravel figure s) := by
  unfold backOffTravel
  split
  · split
    · exact changeRun_hold_travelFrame s
    · exact ⟨rfl, rfl, .inl rfl⟩
  · exact .refl s
  · exact .refl s

theorem reverseTravel_travelFrame : TravelFrame s (reverseTravel figure s) := by
  unfold reverseTravel
  split
  · exact .refl s
  split
  · split <;> exact ⟨rfl, rfl, .inl rfl⟩
  split
  · split
    · exact changeRun_hold_travelFrame s
    · exact ⟨rfl, rfl, .inl rfl⟩
  · exact .refl s

/-- A travel ends its moves in HOLD alone, which arms no input (R24, R84, R123, R128, R154). -/
theorem handTravel_travelFrame : TravelFrame s (handTravel figure s) :=
  have hsuspect (t : State) : TravelFrame t (suspectTravel figure t) := ⟨rfl, rfl, .inl rfl⟩
  (((segmentTravel_travelFrame figure s).trans (backOffTravel_travelFrame figure _)).trans (hsuspect _)).trans
    (reverseTravel_travelFrame figure _)

end

theorem travelled_travelFrame (ticks : Int) (s : State) : TravelFrame s (travelled ticks s) := by
  have hw := travelled_windowOnly ticks s
  have hframe := handTravel_travelFrame (figureOf ticks s) (replied ticks s)
  refine ⟨?_, ?_, ?_⟩
  · rw [hw.rfx, hframe.armed, replied_rfx]
  · rw [hw.mru, hframe.mru, replied_mru]
  · rw [hw.rct, ← replied_rct ticks s]
    exact hframe.state

section
variable {left right : Bool} {s : State}

theorem stallInput_of_no_fire (h : mayFire s = false) : stallInput left right s = withArmed { s.rfx.armed with
    stallLeft := s.rfx.armed.stallLeft || !left, stallRight := s.rfx.armed.stallRight || !right } s := by
  rw [stallInput, h]
  rfl

/-- The stall flags where inputs fire: the fires of one reply make one STALL (R125, R131). -/
theorem stallInput_of_mayFire (h : mayFire s = true) : stallInput left right s =
    let armed := withArmed { s.rfx.armed with stallLeft := !left, stallRight := !right } s
    match sideOf (left && s.rfx.armed.stallLeft) (right && s.rfx.armed.stallRight) with
    | some side => (fire (.stall side) 0 none armed).1
    | none => armed := by
  rw [stallInput, h]
  rfl

end

/-- Settles O28. -/
theorem stallFiresWhileArmed : Obligations.StallFiresWhileArmed := by
  intro tL tR left right s hs hL hR figure
  have hw := travelled_windowOnly (tL + tR) s
  have hexec := exec_odometryReply hs hL hR
  have hrun := replied_rct (tL + tR) s
  have hdau := replied_dau (tL + tR) s
  have hcal : (replied (tL + tR) s).tbs.cal = s.tbs.cal := by rw [replied_tbs]
  have hframe := travelled_travelFrame (tL + tR) s
  refine ⟨travelled (tL + tR) s, ?_, hframe.mru, hframe.armed, ?_, fun hc hp hsus hrev => ?_,
    fun hphase hdock => ⟨fun h m hback hreached => ?_, fun m hundock hm hreached => ?_, fun c hm hc hk hreached => ?_⟩,
    fun hstill => ?_, fun hl hf => ?_⟩
  · rw [hw.tbs, (handTravel_replyFrame _ _).tbs, replied_tbs]
  · rw [hexec, stallInput_false, hframe.armed]
    rfl
  · have hunmeasured : Unmeasured (replied (tL + tR) s) :=
      ⟨by rw [replied_mgt, hc], by rw [replied_rfx, hp], by rw [replied_rfx, hsus], by rw [hdau, hrev]⟩
    rw [hw.rct, hw.rfx, hw.mgt, hw.dau, handTravel_of_unmeasured hunmeasured]
    exact ⟨hrun, replied_rfx _ _, replied_mgt _ _, hdau⟩
  · have htravel := handTravel_backOff (figure := figure) (replied_phaseLaw hphase (tL + tR)) (replied_dockLaw hdock (tL + tR))
      (h := h) (m := m) (by rw [replied_rfx]; exact hback)
    rw [hw.rct]
    exact (htravel.1 (by rw [hcal]; exact hreached)).2
  · have htravel := handTravel_undocking (figure := figure) (replied_phaseLaw hphase (tL + tR)) (replied_dockLaw hdock (tL + tR))
      (m := m) (by rw [hrun]; exact hundock) (by rw [hdau]; exact hm)
    rw [hw.rct]
    exact (htravel.1 (by rw [hcal]; exact hreached)).1
  · have hmgt := replied_mgt (tL + tR) s
    have hdone : handTravel (figureOf (tL + tR) s) (replied (tL + tR) s) =
        suspectTravel figure (completeSegment c.segment (replied (tL + tR) s)) :=
      handTravel_of_complete (replied_phaseLaw hphase _) (replied_dockLaw hdock _) (by rw [hrun]; exact hm) (by rw [hmgt]; exact hc)
        hk hreached
    rw [hw.rct, hw.mgt, hdone, suspectTravel_rct, suspectTravel_mgt]
    refine ⟨fun hstep => ?_, fun hstep => ⟨?_, fun hq => ?_, fun g rest hq => ?_⟩⟩
    · rw [completeSegment_of_step (by rw [hrun]; exact hstep)]
      exact ⟨rfl, rfl, by rw [hmgt]⟩
    · rw [((completeSegment_rfx _ _).1 (completeSegment_state (by rw [hrun]; exact hstep))).1, hrun]
    · rw [completeSegment_of_starved (by rw [hrun]; exact hstep) (by rw [hmgt]; exact hq)]
      exact ⟨rfl, by rw [raise_mgt, hmgt]; exact hq⟩
    · rw [completeSegment_of_next (by rw [hrun]; exact hstep) (by rw [hmgt]; exact hq)]
      exact ⟨rfl, rfl⟩
  · rw [hexec, stallInput_of_no_fire (mayFire_eq_false_iff.mpr (.inr hstill)), hframe.armed]
    rfl
  · have hload : (travelled (tL + tR) s).rct.state ≠ .loading := by
      rcases hframe.state with e | e
      · rw [e]
        exact hs
      · rw [e]
        simp
    rw [hexec, stallInput_of_mayFire (mayFire_eq_true hload hl hf), hframe.armed]
    have hside (b a : Bool) : (b && a) = decide (b = true ∧ a = true) := by cases b <;> cases a <;> rfl
    simp only [hside]
    refine ⟨fun hleft hright => ?_, fun hleft hright => ?_, fun hleft hright => ?_, fun hleft hright => ?_⟩
    · rw [decide_eq_true hleft, decide_eq_true hright]
      rfl
    · rw [decide_eq_true hleft, decide_eq_false hright]
      rfl
    · rw [decide_eq_false hleft, decide_eq_true hright]
      rfl
    · rw [decide_eq_false hleft, decide_eq_false hright]
      rfl

/-! ## The brush status (R132, R160) -/

section
variable {b : BrushState} {s : State}

theorem brushReport_of_unconfirmed (h : s.dli.reservation = none ∨ ∃ r, s.dli.reservation = some r ∧ b ≠ r.commanded) :
    brushReport b s = { s with dli := { s.dli with brushState := b } } := by
  rcases h with h | ⟨r, h, hne⟩
  · simp only [brushReport, h]
  · simp only [brushReport, h, if_neg hne]

theorem brushReport_of_confirmed {r : Reservation} (h : s.dli.reservation = some r) (hb : b = r.commanded)
    (hp : s.dli.pendingBrush = none) :
    brushReport b s = { s with dli := { s.dli with brushState := b, reservation := none } } := by
  simp only [brushReport, h, if_pos hb, hp]
  rfl

theorem brushReport_of_pending {r : Reservation} {p : BrushState} (h : s.dli.reservation = some r) (hb : b = r.commanded)
    (hp : s.dli.pendingBrush = some p) : brushReport b s = { s with dli := { s.dli with
      brushState := b
      reservation := some { commanded := p, sentAt := s.pot.timeCount }
      pendingBrush := none
      leaving := leavingAfter (.brush (some p)) s.dli.leaving
      waiting := waitingAfter (.brush (some p)) s.dli.leaving s.dli.waiting } } := by
  simp only [brushReport, h, if_pos hb, hp]
  exact sendBrushCommand_eq _ _

/-- A brush status changes the Drive Link's record alone. -/
theorem brushReport_eq (b : BrushState) (s : State) : brushReport b s = { s with dli := (brushReport b s).dli } := by
  cases hr : s.dli.reservation with
  | none => rw [brushReport_of_unconfirmed (.inl hr)]
  | some r =>
    by_cases hb : b = r.commanded
    · cases hp : s.dli.pendingBrush with
      | none => rw [brushReport_of_confirmed hr hb hp]
      | some p => rw [brushReport_of_pending hr hb hp]
    · rw [brushReport_of_unconfirmed (.inr ⟨r, hr, hb⟩)]

theorem jamInput_of_absent : jamInput false s = withArmed { s.rfx.armed with jam := true } s := by
  unfold jamInput
  cases mayFire s <;> simp [rearm, afterArrival]

theorem jamInput_of_no_fire (h : mayFire s = false) : jamInput true s = s := by
  unfold jamInput
  simp [h, rearm, withArmed]

theorem jamInput_of_disarmed (h : s.rfx.armed.jam = false) : jamInput true s = s := by
  have hkept : withArmed { s.rfx.armed with jam := false } s = s := by
    rw [← h]
    rfl
  unfold jamInput
  cases mayFire s <;> simp [rearm, afterArrival, h, hkept]

theorem jamInput_of_fires (h : mayFire s = true) (harmed : s.rfx.armed.jam = true) :
    jamInput true s = (fire .jam 0 none (withArmed { s.rfx.armed with jam := false } s)).1 := by
  unfold jamInput
  simp [h, harmed, afterArrival]

end

/-- Settles O29. -/
theorem brushStatusConfirmsAndJamFires : Obligations.BrushStatusConfirmsAndJamFires := by
  intro b jam s hs
  have hexec : exec (.brushStatus b jam) s = .next (arbitrate (jamInput jam (brushReport b s))) :=
    congrArg Host.Outcome.next (takeLine_of_taken hs rfl _)
  have hrfx : (brushReport b s).rfx = s.rfx := by rw [brushReport_eq]
  have hrct : (brushReport b s).rct = s.rct := by rw [brushReport_eq]
  refine ⟨brushReport b s, brushReport_eq b s, fun h => ?_, fun r hr hb => ⟨fun hp => ?_, fun p hp => ?_⟩, fun hj => ?_,
    fun hj hquiet => ?_, fun hj harmed hl hf => ?_⟩
  · rw [brushReport_of_unconfirmed h]
  · rw [brushReport_of_confirmed hr hb hp]
  · rw [brushReport_of_pending hr hb hp]
  · rw [hexec, hj, jamInput_of_absent, withArmed, hrfx]
  · rw [hexec, hj]
    rcases hquiet with h | h
    · rw [jamInput_of_disarmed (by rw [hrfx]; exact h)]
    · rw [jamInput_of_no_fire (mayFire_eq_false_iff.mpr (by rw [hrct]; exact .inr h))]
  · rw [hexec, hj, jamInput_of_fires (mayFire_eq_true (by rwa [hrct]) (by rwa [hrct]) (by rwa [hrct])) (by rwa [hrfx]), hrfx,
      withArmed, hrfx]

end Sys2Proof.Machine
end

section
/-! The operations of the map part read and write the tables, the pose, the window, the marks, the events and the Plan Link
alone: they act on these blocks in the same way beside any other blocks (R41 to R45, R60 to R68, R89 to R99, R133). -/

namespace Sys2Proof.Machine

/-- The map part of a state beside the other blocks of `o`. -/
def beside (o s : State) : State :=
  { o with tbs := s.tbs, pot := s.pot, twn := s.twn, mru := s.mru, evu := s.evu, pli := s.pli }

section
variable (o s : State)

theorem beside_tbs : (beside o s).tbs = s.tbs := rfl
theorem beside_pot : (beside o s).pot = s.pot := rfl
theorem beside_twn : (beside o s).twn = s.twn := rfl
theorem responseOf_beside (c : CellClass) : responseOf (beside o s) c = responseOf s c := rfl

theorem request_beside (k : TileKey) : request k (beside o s) = beside o (request k s) := by
  by_cases h : (∃ i, (s.twn.slot i).key? = some k) ∨ 6 ≤ s.twn.pendingRequests
  · rw [request_of_held h, request_of_held (s := beside o s) h]
  · rw [not_or, not_exists, Nat.not_le] at h
    obtain ⟨hk, hp⟩ := h
    cases hi : s.twn.slotToTake s.pot.pose with
    | some i =>
      rw [request_of_slot hk hp hi, request_of_slot (s := beside o s) hk hp hi]
      rfl
    | none =>
      rw [request_of_no_slot hk hp hi, request_of_no_slot (s := beside o s) hk hp hi]
      rfl

theorem lookup_beside (c : Cell) : lookup c (beside o s) = ((lookup c s).1, beside o (lookup c s).2) := by
  cases hf : s.twn.find (c.key s.pot.pose.level) with
  | none =>
    simp only [lookup, beside_twn, beside_pot, hf, request_beside]
    split <;> rfl
  | some i =>
    simp only [lookup, beside_twn, beside_pot, hf]
    cases (s.twn.slot i).tile? <;> rfl

theorem lookupOrOffMap_beside (c : Option Cell) :
    lookupOrOffMap c (beside o s) = ((lookupOrOffMap c s).1, beside o (lookupOrOffMap c s).2) := by
  cases c with
  | none => rfl
  | some c => exact lookup_beside o s c

theorem lookupCentre_beside : lookupCentre (beside o s) = ((lookupCentre s).1, beside o (lookupCentre s).2) := by
  by_cases h : s.pot.pose.valid = true
  · rw [lookupCentre, lookupCentre, if_pos h, if_pos (show (beside o s).pot.pose.valid = true from h)]
    exact lookup_beside o s _
  · rw [lookupCentre, lookupCentre, if_neg h, if_neg (show ¬(beside o s).pot.pose.valid = true from h)]

theorem stopsScan_beside (r : Option CellClass) : stopsScan (beside o s) r = stopsScan s r := by
  cases r <;> rfl

theorem scanFrom_beside (heading left k : Nat) :
    scanFrom heading left k (beside o s) = ((scanFrom heading left k s).1, beside o (scanFrom heading left k s).2) := by
  induction left generalizing k s with
  | zero => rfl
  | succ left ih =>
    have hstep : lookupOrOffMap (sampleCell (beside o s) heading k) (beside o s) = _ := lookupOrOffMap_beside o s (sampleCell s heading k)
    simp only [scanFrom, hstep, stopsScan_beside]
    by_cases hstop : stopsScan (lookupOrOffMap (sampleCell s heading k) s).2 (lookupOrOffMap (sampleCell s heading k) s).1 = true
    · simp only [if_pos hstop]
    · simp only [if_neg hstop]
      exact ih _ _

theorem scan_beside (vc : Int) : scan vc (beside o s) = ((scan vc s).1, beside o (scan vc s).2) := by
  by_cases h : s.pot.pose.valid = true
  · rw [scan, scan, if_pos h, if_pos (show (beside o s).pot.pose.valid = true from h)]
    simp only [beside_pot, beside_tbs, scanFrom_beside]
  · rw [scan, scan, if_neg h, if_neg (show ¬(beside o s).pot.pose.valid = true from h)]
    rfl

theorem noEdgeNear_beside (cells : List (Option Cell)) :
    noEdgeNear cells (beside o s) = ((noEdgeNear cells s).1, beside o (noEdgeNear cells s).2) := by
  induction cells generalizing s with
  | nil => rfl
  | cons c rest ih =>
    rw [noEdgeNear, noEdgeNear, lookupOrOffMap_beside]
    cases hr : (lookupOrOffMap c s).1 with
    | none => rfl
    | some cls =>
      by_cases hedge : (responseOf (lookupOrOffMap c s).2 cls).edge = true
      · simp only [if_pos hedge]
        exact if_pos hedge
      · simp only [if_neg hedge]
        exact (if_neg hedge).trans (ih _)

/-- The judgement of a cliff sensor's trust (R133). -/
theorem judgeTrust_beside (x : CliffSensor) :
    judgeTrust x (beside o s) = ((judgeTrust x s).1, beside o (judgeTrust x s).2) := by
  by_cases h : s.pot.pose.valid = true
  · rw [judgeTrust, judgeTrust, if_pos h, if_pos (show (beside o s).pot.pose.valid = true from h)]
    simp only [beside_pot, beside_tbs, lookup_beside]
    cases hr : (lookup (offsetCell s.pot.pose.base (sensorOffset s.tbs.cal x).1 (sensorOffset s.tbs.cal x).2) s).1 with
    | none => rfl
    | some cls =>
      simp only [noEdgeNear_beside, responseOf_beside]
      split <;> rfl
  · rw [judgeTrust, judgeTrust, if_neg h, if_neg (show ¬(beside o s).pot.pose.valid = true from h)]

theorem recordMark_beside (i : SlotNo) (r : MarkRecord) : recordMark i r (beside o s) = beside o (recordMark i r s) := by
  cases h : s.twn.slot i with
  | clean t =>
    simp only [recordMark, beside_twn, h, becomeMarked, offerReport_eq]
    rfl
  | marked t m => simp only [recordMark, beside_twn, h]; rfl
  | sent t m => simp only [recordMark, beside_twn, h]; rfl
  | empty => simp only [recordMark, beside_twn, h]
  | pending k t => simp only [recordMark, beside_twn, h]

theorem placeMark_beside (kind : MarkKind) (cls : CellClass) (c : Cell) (stale : Bool) :
    placeMark kind cls c stale (beside o s) = beside o (placeMark kind cls c stale s) := by
  rw [placeMark, placeMark, lookup_beside]
  cases hl : lookup c s with
  | mk found s1 =>
    cases found with
    | none => rfl
    | some held =>
      by_cases hmay : mayMark s.tbs.response held cls = true
      · simp only [if_pos hmay]
        refine (if_pos hmay).trans ?_
        simp only [beside_twn, beside_pot]
        cases s1.twn.find (c.key s.pot.pose.level) with
        | none => rfl
        | some i => exact recordMark_beside o s1 i _
      · simp only [if_neg hmay]
        exact if_neg hmay

/-- A mark's request (R60). -/
theorem requestMark_beside (h : Hazard) (age : Nat) : requestMark h age (beside o s) = beside o (requestMark h age s) := by
  by_cases hv : s.pot.pose.valid = true
  · rw [requestMark, requestMark, if_pos hv, if_pos (show (beside o s).pot.pose.valid = true from hv)]
    simp only [beside_tbs]
    cases s.tbs.learn.entry h.kind with
    | none => rfl
    | some cls => exact placeMark_beside o s _ _ _ _
  · rw [requestMark, requestMark, if_neg hv, if_neg (show ¬(beside o s).pot.pose.valid = true from hv)]

end

/-! ## The gate beside another state (R89 to R99) -/

/-- Two states that give the gate the same: the same map part, run state and creep factor, phases and suspicions, and a
current segment with the same speeds and brush request. -/
structure GateAlike (s t : State) : Prop where
  map : t = beside t s
  state : t.rct.state = s.rct.state
  creep : t.rct.creep = s.rct.creep
  phase : t.rfx.phase = s.rfx.phase
  suspects : t.rfx.suspects = s.rfx.suspects
  dau : t.dau = s.dau
  source : t.mgt.current.map (fun c => (c.segment.vL, c.segment.vR, c.segment.brush)) =
    s.mgt.current.map fun c => (c.segment.vL, c.segment.vR, c.segment.brush)

section
variable {s t : State}

theorem GateAlike.tbs (h : GateAlike s t) : t.tbs = s.tbs := by rw [h.map, beside_tbs]

theorem GateAlike.gateSource (h : GateAlike s t) : gateSource t = gateSource s := by
  have hsource := h.source
  unfold Machine.gateSource
  rw [h.state, h.phase, h.dau, h.tbs]
  cases hs : s.mgt.current <;> cases ht : t.mgt.current <;> simp [hs, ht] at hsource ⊢
  simp [hsource]

theorem GateAlike.creepDivisor (h : GateAlike s t) : creepDivisor t = creepDivisor s := by
  rw [Machine.creepDivisor, h.state, h.creep]
  rfl

theorem GateAlike.gateLimit (h : GateAlike s t) (brake cap : Nat) : gateLimit t brake cap = gateLimit s brake cap := by
  rw [Machine.gateLimit, h.creepDivisor, h.suspects, h.tbs]
  rfl

theorem GateAlike.floorCap (h : GateAlike s t) (centre : Option CellClass) : floorCap t centre = floorCap s centre := by
  cases centre with
  | none => rw [Machine.floorCap, h.tbs]; rfl
  | some c => rw [Machine.floorCap, Machine.responseOf, h.tbs]; rfl

theorem GateAlike.centreWish (h : GateAlike s t) (centre : Option CellClass) : centreWish t centre = centreWish s centre := by
  cases centre with
  | none => rfl
  | some c => rw [Machine.centreWish, Machine.responseOf, h.tbs]; rfl

theorem GateAlike.brushWish (h : GateAlike s t) (centre : Option CellClass) : brushWish t centre = brushWish s centre := by
  have hrequest : (t.mgt.current.bind fun c => c.segment.brush) = s.mgt.current.bind fun c => c.segment.brush := by
    have hsource := h.source
    cases hs : s.mgt.current <;> cases ht : t.mgt.current <;> simp [hs, ht] at hsource ⊢
    exact hsource.2.2
  rw [Machine.brushWish, h.state, h.phase, h.centreWish, hrequest]
  rfl

theorem GateAlike.lookupCentre (h : GateAlike s t) : lookupCentre t = ((lookupCentre s).1, beside t (lookupCentre s).2) := by
  have hb := lookupCentre_beside t s
  rwa [← h.map] at hb

theorem GateAlike.scan (h : GateAlike s t) (vc : Int) : scan vc t = ((scan vc s).1, beside t (scan vc s).2) := by
  have hb := scan_beside t s vc
  rwa [← h.map] at hb

theorem GateAlike.spin (h : GateAlike s t) (srcL srcR vL vR : Int) :
    spin srcL srcR vL vR t = ((spin srcL srcR vL vR s).1, beside t (spin srcL srcR vL vR s).2) := by
  simp only [Machine.spin, h.tbs, h.creepDivisor, h.brushWish, h.state]
  by_cases hm : s.rct.state.moving = true
  · simp only [if_pos hm, h.lookupCentre]
  · simp only [if_neg hm, ← h.map]

theorem GateAlike.travel (h : GateAlike s t) (srcL srcR vL vR : Int) :
    travel srcL srcR vL vR t = ((travel srcL srcR vL vR s).1, beside t (travel srcL srcR vL vR s).2) := by
  simp only [Machine.travel, h.scan, lookupCentre_beside, h.floorCap, h.gateLimit, h.brushWish]

/-- The gate gives the same, and leaves the same window, to states that are alike. -/
theorem GateAlike.gateCompute (h : GateAlike s t) : gateCompute t = ((gateCompute s).1, beside t (gateCompute s).2) := by
  cases hsrc : Machine.gateSource s with
  | none =>
    rw [gateCompute_of_no_source hsrc, gateCompute_of_no_source (h.gateSource.trans hsrc), h.brushWish, ← h.map]
  | some src =>
    rw [gateCompute_of_source hsrc, gateCompute_of_source (h.gateSource.trans hsrc), h.tbs]
    split
    · exact h.spin _ _ _ _
    · exact h.travel _ _ _ _

end

/-! ## The pair within Vwheel (R90, R91, R97) -/

theorem clampWheel_natAbs_le (limit : Nat) (v : Int) : (clampWheel limit v).natAbs ≤ limit := by
  unfold clampWheel clampInt
  omega

theorem clampWheel_natAbs_le_natAbs (limit : Nat) (v : Int) : (clampWheel limit v).natAbs ≤ v.natAbs := by
  unfold clampWheel clampInt
  omega

theorem scalePair_natAbs_le (vL vR : Int) (vlim : Nat) (vc : Int) :
    (scalePair vL vR vlim vc).1.natAbs ≤ vL.natAbs ∧ (scalePair vL vR vlim vc).2.natAbs ≤ vR.natAbs := by
  have hscaled (v : Int) (hlt : vlim < vc.natAbs) : ((v * vlim).tdiv vc.natAbs).natAbs ≤ v.natAbs := by
    rw [Int.natAbs_tdiv, Int.natAbs_mul, Int.natAbs_natCast, Int.natAbs_natCast]
    exact Nat.div_le_of_le_mul (by rw [Nat.mul_comm vc.natAbs]; exact Nat.mul_le_mul_left _ hlt.le)
  rcases Nat.lt_or_ge vlim vc.natAbs with hlt | hge
  · rw [scalePair_of_lt hlt]
    exact ⟨hscaled vL hlt, hscaled vR hlt⟩
  · rw [scalePair_of_le hge]
    exact ⟨Nat.le_refl _, Nat.le_refl _⟩

/-- The pair that the gate gives lies within Vwheel on each wheel. -/
theorem gateCompute_natAbs_le (s : State) :
    (gateCompute s).1.vL.natAbs ≤ s.tbs.cal.vWheel ∧ (gateCompute s).1.vR.natAbs ≤ s.tbs.cal.vWheel := by
  cases hsrc : gateSource s with
  | none =>
    rw [gateCompute_of_no_source hsrc]
    exact ⟨Nat.zero_le _, Nat.zero_le _⟩
  | some src =>
    rw [gateCompute_of_source hsrc]
    have hclamp := clampWheel_natAbs_le s.tbs.cal.vWheel
    split
    · exact ⟨(clampWheel_natAbs_le_natAbs _ _).trans (hclamp _), (clampWheel_natAbs_le_natAbs _ _).trans (hclamp _)⟩
    · have hpair := scalePair_natAbs_le (clampWheel s.tbs.cal.vWheel src.1) (clampWheel s.tbs.cal.vWheel src.2)
      exact ⟨(hpair _ _).1.trans (hclamp _), (hpair _ _).2.trans (hclamp _)⟩

/-! ## The two frames of an expiry (R98, R157, R161) -/

/-- A frame that the DLI comes to send stands behind those it holds (R157). -/
theorem driveFrames_append {d e : DriveLink} {f : DriveFrame} (h : d.leaving = none → d.waiting = [])
    (hleaving : e.leaving = leavingAfter f d.leaving) (hwaiting : e.waiting = waitingAfter f d.leaving d.waiting) :
    driveFrames e = driveFrames d ++ [f] ∧ e.leaving ≠ none := by
  unfold driveFrames
  rw [hleaving, hwaiting]
  cases hl : d.leaving with
  | none => simp [h hl, leavingAfter, waitingAfter]
  | some g => simp [leavingAfter, waitingAfter]

section
variable {s : State} {w : BrushState}

theorem takeWish_of_reserved {r : Reservation} (hr : s.dli.reservation = some r) : takeWish w s = { s with dli := { s.dli with
    lastWish := w
    pendingBrush := if w = r.commanded then none else some w
    leaving := leavingAfter (.brush none) s.dli.leaving
    waiting := waitingAfter (.brush none) s.dli.leaving s.dli.waiting } } := by
  simp only [takeWish, hr, sendDrive_eq]

theorem takeWish_of_same (hr : s.dli.reservation = none) (hw : w = s.dli.brushState) : takeWish w s = { s with dli := { s.dli with
    lastWish := w
    leaving := leavingAfter (.brush none) s.dli.leaving
    waiting := waitingAfter (.brush none) s.dli.leaving s.dli.waiting } } := by
  simp only [takeWish, hr, if_pos hw, sendDrive_eq]

theorem takeWish_of_other (hr : s.dli.reservation = none) (hw : w ≠ s.dli.brushState) : takeWish w s = { s with dli := { s.dli with
    lastWish := w
    reservation := some { commanded := w, sentAt := s.pot.timeCount }
    pendingBrush := none
    leaving := leavingAfter (.brush (some w)) s.dli.leaving
    waiting := waitingAfter (.brush (some w)) s.dli.leaving s.dli.waiting } } := by
  simp only [takeWish, hr, if_neg hw, sendBrushCommand_eq]

end

/-- What the wish of an expiry sends, and the brush record that it leaves (R161). -/
structure WishTaken (w : BrushState) (command : Option BrushState) (s t : State) : Prop where
  frames : driveFrames t.dli = driveFrames s.dli ++ [.brush command]
  lastSetpoints : t.dli.lastSetpoints = s.dli.lastSetpoints
  brushState : t.dli.brushState = s.dli.brushState
  lastWish : t.dli.lastWish = w
  same : s.dli.reservation = none → w = s.dli.brushState →
    command = none ∧ t.dli.reservation = none ∧ t.dli.pendingBrush = s.dli.pendingBrush
  other : s.dli.reservation = none → w ≠ s.dli.brushState →
    command = some w ∧ t.dli.pendingBrush = none ∧ t.dli.reservation = some { commanded := w, sentAt := s.pot.timeCount }
  reserved : ∀ r, s.dli.reservation = some r → command = none ∧ t.dli.reservation = some r ∧
    t.dli.pendingBrush = if w = r.commanded then none else some w

theorem takeWish_taken {s : State} (h : DriveQueueLaw s) (w : BrushState) : ∃ command, WishTaken w command s (takeWish w s) := by
  cases hr : s.dli.reservation with
  | some r =>
    rw [takeWish_of_reserved hr]
    exact ⟨none, (driveFrames_append h rfl rfl).1, rfl, rfl, rfl, fun e => by simp [e] at hr, fun e => by simp [e] at hr,
      fun q hq => ⟨rfl, hr.trans (hr.symm.trans hq), by rw [Option.some.inj (hr.symm.trans hq)]⟩⟩
  | none =>
    have hfree : ∀ q, s.dli.reservation ≠ some q := by simp [hr]
    by_cases hw : w = s.dli.brushState
    · rw [takeWish_of_same hr hw]
      exact ⟨none, (driveFrames_append h rfl rfl).1, rfl, rfl, rfl, fun _ _ => ⟨rfl, hr, rfl⟩, fun _ hne => absurd hw hne,
        fun q hq => absurd hq (hfree q)⟩
    · rw [takeWish_of_other hr hw]
      exact ⟨some w, (driveFrames_append h rfl rfl).1, rfl, rfl, rfl, fun _ he => absurd he hw, fun _ _ => ⟨rfl, rfl, rfl⟩,
        fun q hq => absurd hq (hfree q)⟩

/-! ## The parts of an expiry (R82, R83, R88, R98) -/

theorem takeWish_eq (w : BrushState) (s : State) : takeWish w s = { s with dli := (takeWish w s).dli } := by
  cases hr : s.dli.reservation with
  | some r => rw [takeWish_of_reserved hr]
  | none =>
    by_cases hw : w = s.dli.brushState
    · rw [takeWish_of_same hr hw]
    · rw [takeWish_of_other hr hw]

theorem sendSetpoint_eq (vL vR : Int) (s : State) : sendSetpoint vL vR s = { s with dli := { s.dli with
    lastSetpoints := (vL, vR)
    leaving := leavingAfter (.setpoint vL vR) s.dli.leaving
    waiting := waitingAfter (.setpoint vL vR) s.dli.leaving s.dli.waiting } } := sendDrive_eq _ _

theorem handOverGate_eq (g : GateOutput) (s : State) : handOverGate g s = { s with
    dli := (handOverGate g s).dli
    mgt := { s.mgt with result := g.result } } := by
  rw [handOverGate, takeWish_eq, sendSetpoint_eq]

/-- What the DLI sends does not depend on the other blocks. -/
theorem takeWish_dli_congr {s t : State} (hd : t.dli = s.dli) (hp : t.pot = s.pot) (w : BrushState) :
    (takeWish w t).dli = (takeWish w s).dli := by
  cases hr : s.dli.reservation with
  | some r => rw [takeWish_of_reserved hr, takeWish_of_reserved (s := t) (by rw [hd]; exact hr), hd]
  | none =>
    by_cases hw : w = s.dli.brushState
    · rw [takeWish_of_same hr hw, takeWish_of_same (s := t) (by rw [hd]; exact hr) (by rw [hd]; exact hw), hd]
    · rw [takeWish_of_other hr hw, takeWish_of_other (s := t) (by rw [hd]; exact hr) (by rw [hd]; exact hw), hd, hp]

theorem handOverGate_dli_congr {s t : State} (hd : t.dli = s.dli) (hp : t.pot = s.pot) (g : GateOutput) :
    (handOverGate g t).dli = (handOverGate g s).dli := by
  refine takeWish_dli_congr ?_ ?_ g.wish
  · rw [sendSetpoint_eq, sendSetpoint_eq, hd]
  · rw [sendSetpoint_eq, sendSetpoint_eq]
    exact hp

/-- Every expiry sends a setpoint frame, and then a brush frame (R98, R157, R161). -/
theorem handOverGate_sent {s : State} (h : DriveQueueLaw s) (g : GateOutput) : ∃ command,
    driveFrames (handOverGate g s).dli = driveFrames s.dli ++ [.setpoint g.vL g.vR, .brush command] ∧
      (handOverGate g s).dli.lastSetpoints = (g.vL, g.vR) ∧
      WishTaken g.wish command (sendSetpoint g.vL g.vR s) (handOverGate g s) := by
  have hsend := driveFrames_append (d := s.dli) (e := (sendSetpoint g.vL g.vR s).dli) (f := .setpoint g.vL g.vR) h
    (by rw [sendSetpoint_eq]) (by rw [sendSetpoint_eq])
  obtain ⟨command, hwish⟩ := takeWish_taken (s := sendSetpoint g.vL g.vR s) (fun hn => absurd hn hsend.2) g.wish
  have hkept : WishTaken g.wish command (sendSetpoint g.vL g.vR s) (handOverGate g s) := { hwish with }
  refine ⟨command, ?_, hkept.lastSetpoints.trans (by rw [sendSetpoint_eq]), hkept⟩
  rw [hkept.frames, hsend.1, List.append_assoc]
  rfl

/-- What every part of an expiry but the hand-over leaves: the pose, the tables, the Sense Port and the Drive Link. -/
structure ExpiryFrame (s t : State) : Prop where
  pot : t.pot = s.pot
  tbs : t.tbs = s.tbs
  snp : t.snp = s.snp
  dli : t.dli = s.dli

theorem ExpiryFrame.refl (s : State) : ExpiryFrame s s := ⟨rfl, rfl, rfl, rfl⟩

theorem ExpiryFrame.trans {s t u : State} (h : ExpiryFrame s t) (h' : ExpiryFrame t u) : ExpiryFrame s u :=
  ⟨h'.pot.trans h.pot, h'.tbs.trans h.tbs, h'.snp.trans h.snp, h'.dli.trans h.dli⟩

/-- A part of an expiry that also leaves the mode commands. -/
structure GateFrame (s t : State) : Prop extends ExpiryFrame s t where
  modeQueue : t.rct.modeQueue = s.rct.modeQueue

theorem GateFrame.trans {s t u : State} (h : GateFrame s t) (h' : GateFrame t u) : GateFrame s u :=
  ⟨h.toExpiryFrame.trans h'.toExpiryFrame, h'.modeQueue.trans h.modeQueue⟩

theorem GateFrame.refl (s : State) : GateFrame s s := ⟨.refl s, rfl⟩

section
variable (s : State)

/-- The reflex phase after an expiry's change (R127). -/
def ReflexPhase.begun (now : Time) : ReflexPhase → ReflexPhase
  | .halt h => .back h { travel := 0, start := now }
  | p => p

/-- The DAU's record after an expiry's change (R149). -/
def DockUnit.begun (now : Time) (d : DockUnit) : DockUnit :=
  if d.phase = .bumpHalt then { d with phase := .bumpReverse, reverse := some { travel := 0, start := now } } else d

theorem changePhases_eq : changePhases s = { s with
    rfx := { s.rfx with phase := s.rfx.phase.begun s.pot.timeCount }
    dau := s.dau.begun s.pot.timeCount } := by
  have hback : beginBackOff s = { s with rfx := { s.rfx with phase := s.rfx.phase.begun s.pot.timeCount } } := by
    unfold beginBackOff
    cases hp : s.rfx.phase <;> simp [ReflexPhase.begun, withPhase, ← hp]
  rw [changePhases, hback, beginBumpReverse, DockUnit.begun]
  split <;> rfl

theorem changePhases_gateFrame : GateFrame s (changePhases s) := by
  rw [changePhases_eq]
  exact ⟨⟨rfl, rfl, rfl, rfl⟩, rfl⟩

theorem takeAtExpiry_gateFrame : GateFrame s (takeAtExpiry s) := by
  unfold takeAtExpiry takeHead
  split
  · cases s.mgt.queue <;> exact ⟨⟨rfl, rfl, rfl, rfl⟩, rfl⟩
  · exact .refl s

theorem completeSegment_gateFrame (g : Segment) : GateFrame s (completeSegment g s) := by
  by_cases hstep : s.rct.state = .step
  · rw [completeSegment_of_step hstep]
    exact ⟨⟨rfl, rfl, rfl, rfl⟩, rfl⟩
  · cases hq : s.mgt.queue with
    | nil => rw [completeSegment_of_starved hstep hq]; exact ⟨⟨rfl, rfl, rfl, rfl⟩, rfl⟩
    | cons next rest => rw [completeSegment_of_next hstep hq]; exact ⟨⟨rfl, rfl, rfl, rfl⟩, rfl⟩

theorem segmentElapsed_gateFrame (length : Nat) : GateFrame s (segmentElapsed length s) := by
  unfold segmentElapsed
  split
  · split
    · unfold progressSegment
      split
      · exact completeSegment_gateFrame _ _
      · exact ⟨⟨rfl, rfl, rfl, rfl⟩, rfl⟩
    · exact .refl s
  · exact .refl s

theorem gateCompute_gateFrame : GateFrame s (gateCompute s).2 := by
  have h := (gateCompute_frame s).1
  exact ⟨⟨h.pot, h.tbs, by rw [h], h.dli⟩, by rw [h.rct]⟩

theorem changeRun_gateFrame (r : RunState) : GateFrame s (changeRun r s) := ⟨⟨rfl, rfl, rfl, rfl⟩, rfl⟩

theorem carryOut_gateFrame (c : ModeCommand) : GateFrame s (carryOut c s) := by
  cases hk : c.kind <;> simp only [carryOut, hk]
  case hold =>
    unfold takeHold
    split
    · exact ⟨⟨rfl, rfl, rfl, rfl⟩, rfl⟩
    · exact changeRun_gateFrame s _
  case step =>
    unfold takeStep
    split
    · exact changeRun_gateFrame s _
    · exact ⟨⟨rfl, rfl, rfl, rfl⟩, rfl⟩
  all_goals exact ⟨⟨rfl, rfl, rfl, rfl⟩, rfl⟩

/-! ### The take of the oldest mode command (R109, R110) -/

end

section
variable {s : State} {c : ModeCommand} {rest : List ModeCommand}

/-- The mode commands that wait replaced. -/
def withModes (l : List ModeCommand) (s : State) : State := { s with rct := { s.rct with modeQueue := l } }

theorem takeMode_of_empty (h : s.rct.modeQueue = []) : takeMode s = s := by
  simp only [takeMode, h]

theorem takeMode_of_legal (h : s.rct.modeQueue = c :: rest) (hl : legal c.kind s.rct.state (bothUp s) = true) :
    takeMode s = carryOut c (withModes rest s) := by
  simp only [takeMode, h, hl, if_true]
  rfl

theorem takeMode_of_refused (h : s.rct.modeQueue = c :: rest) (hl : legal c.kind s.rct.state (bothUp s) = false) :
    takeMode s = raise .commandRefused (.refused (.mode c.kind)) (withModes rest s) := by
  simp only [takeMode, h, hl]
  rfl

/-- A take removes the oldest mode command. -/
theorem takeMode_frame (s : State) : ExpiryFrame s (takeMode s) ∧ (takeMode s).rct.modeQueue = s.rct.modeQueue.tail := by
  cases h : s.rct.modeQueue with
  | nil => rw [takeMode_of_empty h]; exact ⟨.refl s, h⟩
  | cons c rest =>
    have hmodes : ExpiryFrame s (withModes rest s) := ⟨rfl, rfl, rfl, rfl⟩
    cases hl : legal c.kind s.rct.state (bothUp s) with
    | true =>
      rw [takeMode_of_legal h hl]
      have hout := carryOut_gateFrame (withModes rest s) c
      exact ⟨hmodes.trans hout.toExpiryFrame, hout.modeQueue⟩
    | false => rw [takeMode_of_refused h hl]; exact ⟨⟨rfl, rfl, rfl, rfl⟩, rfl⟩

end

/-! ## The whole expiry (R88) -/

/-- What is sent at an expiry, between parts that leave the pose, the tables and the Drive Link. -/
structure ExpirySent (s u : State) : Prop where
  gate : ∃ a b, ExpiryFrame s a ∧ b = handOverGate (gateCompute a).1 (gateCompute a).2 ∧ ExpiryFrame b u

theorem sendGate_sent (s : State) : ExpirySent s (sendGate s) :=
  ⟨_, _, (takeAtExpiry_gateFrame s).toExpiryFrame, rfl, .refl _⟩

theorem ExpirySent.before {s t u : State} (h : ExpiryFrame s t) (hs : ExpirySent t u) : ExpirySent s u := by
  obtain ⟨a, b, ha, hb, hu⟩ := hs
  exact ⟨a, b, h.trans ha, hb, hu⟩

theorem ExpirySent.after {s t u : State} (hs : ExpirySent s t) (h : ExpiryFrame t u) : ExpirySent s u := by
  obtain ⟨a, b, ha, hb, hu⟩ := hs
  exact ⟨a, b, ha, hb, hu.trans h⟩

theorem runGate_sent (length : Nat) (s : State) : ExpirySent s (runGate length s) :=
  (sendGate_sent s).after (segmentElapsed_gateFrame _ _).toExpiryFrame

theorem gateThenTake_sent (length : Nat) (s : State) : ExpirySent s (gateThenTake length s) := by
  rcases gateThenTake_cases length s with ⟨-, h⟩ | ⟨-, h⟩ <;> rw [h]
  · exact ((sendGate_sent s).after (takeMode_frame _).1).after (segmentElapsed_gateFrame _ _).toExpiryFrame
  · exact (runGate_sent length s).after (takeMode_frame _).1

/-- An expiry sends the gate's output once, in either of its orders. -/
theorem expirePeriod_sent (o : ExpiryOrder) (length : Nat) (s : State) : ExpirySent s (expirePeriod o length s) := by
  have htake := (takeMode_frame s).1
  have hphase (t : State) : ExpiryFrame t (changePhases t) := (changePhases_gateFrame t).toExpiryFrame
  have hperiod (t : State) : ExpiryFrame t (beginPeriod t) := ⟨rfl, rfl, rfl, rfl⟩
  obtain ⟨takeFirst, phaseFirst⟩ := o
  cases takeFirst <;> cases phaseFirst <;> simp only [expirePeriod, if_true, if_false, id, Bool.false_eq_true]
  · exact ((gateThenTake_sent _ _).after (hphase _)).after (hperiod _)
  · exact ((gateThenTake_sent _ _).before (hphase _)).after (hperiod _)
  · exact (((runGate_sent _ _).before htake).after (hphase _)).after (hperiod _)
  · exact (((runGate_sent _ _).before (hphase _)).before htake).after (hperiod _)

theorem sendGate_modeQueue (s : State) : (sendGate s).rct.modeQueue = s.rct.modeQueue := by
  rw [sendGate, handOverGate_eq]
  exact (gateCompute_gateFrame _).modeQueue.trans (takeAtExpiry_gateFrame s).modeQueue

theorem runGate_modeQueue (length : Nat) (s : State) : (runGate length s).rct.modeQueue = s.rct.modeQueue :=
  (segmentElapsed_gateFrame _ _).modeQueue.trans (sendGate_modeQueue s)

theorem gateThenTake_modeQueue (length : Nat) (s : State) : (gateThenTake length s).rct.modeQueue = s.rct.modeQueue.tail := by
  rcases gateThenTake_cases length s with ⟨-, h⟩ | ⟨-, h⟩ <;> rw [h]
  · rw [(segmentElapsed_gateFrame _ _).modeQueue, (takeMode_frame _).2, sendGate_modeQueue]
  · rw [(takeMode_frame _).2, runGate_modeQueue]

/-- An expiry takes at most one mode command (R109). -/
theorem expirePeriod_modeQueue (o : ExpiryOrder) (length : Nat) (s : State) :
    (expirePeriod o length s).rct.modeQueue = s.rct.modeQueue.tail := by
  have hphase (t : State) : (changePhases t).rct.modeQueue = t.rct.modeQueue := (changePhases_gateFrame t).modeQueue
  obtain ⟨takeFirst, phaseFirst⟩ := o
  cases takeFirst <;> cases phaseFirst <;> simp only [expirePeriod, if_true, if_false, id, Bool.false_eq_true, beginPeriod_rct]
  · rw [hphase, gateThenTake_modeQueue]
  · rw [gateThenTake_modeQueue, hphase]
  · rw [hphase, runGate_modeQueue, (takeMode_frame s).2]
  · rw [runGate_modeQueue, hphase, (takeMode_frame s).2]

theorem expirePeriod_period (o : ExpiryOrder) (length : Nat) (s : State) : (expirePeriod o length s).mgt.period =
    some { start := (expirePeriod o length s).pot.timeCount, length := (expirePeriod o length s).tbs.cal.controlPeriod } := rfl

/-! ## An expiry with no mode command and no change of phase (R89) -/

/-- No phase is about to change at an expiry (R127, R149). -/
def PhaseSettled (s : State) : Prop := (∀ h, s.rfx.phase ≠ .halt h) ∧ s.dau.phase ≠ .bumpHalt

theorem changePhases_of_settled {s : State} (h : PhaseSettled s) : changePhases s = s := by
  have hback : s.rfx.phase.begun s.pot.timeCount = s.rfx.phase := by
    cases hp : s.rfx.phase with
    | halt x => exact absurd hp (h.1 x)
    | none => rfl
    | back x m => rfl
  rw [changePhases_eq, hback, DockUnit.begun, if_neg h.2]

theorem expiryOrder_of_settled {s : State} (hq : s.rct.modeQueue = []) (h : PhaseSettled s) :
    expiryOrder s = { takeFirst := true, phaseFirst := true } := by
  unfold expiryOrder
  cases hp : s.rfx.phase with
  | halt x => exact absurd hp (h.1 x)
  | none => simp [hq, h.2]
  | back x m => simp [hq, h.2]

/-- With no mode command waiting and no phase about to change an expiry is the gate and the next period alone. -/
theorem expirePeriod_of_settled {s : State} (hq : s.rct.modeQueue = []) (h : PhaseSettled s) (length : Nat) :
    expirePeriod (expiryOrder s) length (nextChoice s) = beginPeriod (runGate length (nextChoice s)) := by
  rw [expiryOrder_of_settled hq h]
  simp only [expirePeriod, if_true, id, takeMode_of_empty (s := nextChoice s) hq, changePhases_of_settled (s := nextChoice s) h]

theorem sendGate_eq_of_take {s t : State} (h : takeAtExpiry s = t) :
    sendGate s = handOverGate (gateCompute t).1 (gateCompute t).2 := by rw [sendGate, h]

theorem takeAtExpiry_of_none (s : State) (h : ¬SegmentState s.rct.state ∨ s.mgt.current ≠ none ∨ s.mgt.queue = []) :
    takeAtExpiry s = s := by
  refine if_neg ?_
  rw [Bool.and_eq_true, Bool.and_eq_true, moving_iff, Option.isNone_iff_eq_none, Bool.not_eq_true', List.isEmpty_eq_false_iff]
  rintro ⟨⟨hm, hc⟩, hq⟩
  rcases h with h | h | h
  · exact h hm
  · exact h hc
  · exact hq h

theorem takeAtExpiry_of_head {s : State} {g : Segment} {rest : List Segment} (hm : SegmentState s.rct.state)
    (hc : s.mgt.current = none) (hq : s.mgt.queue = g :: rest) : takeAtExpiry s = { s with
      mgt := { s.mgt with queue := rest, current := some { segment := g, travel := 0, elapsed := 0 }, starved := false }
      rct := { s.rct with pendingStep := false } } := by
  rw [takeAtExpiry, if_pos (by simp [moving_iff.mpr hm, hc, hq])]
  simp only [takeHead, hq]
  rfl

theorem segmentElapsed_of_not_moving {s : State} (h : ¬SegmentState s.rct.state) (length : Nat) : segmentElapsed length s = s := by
  unfold segmentElapsed
  split
  · exact if_neg (mt moving_iff.mp h)
  · rfl

theorem StillState.not_segment {r : RunState} (h : StillState r) : ¬SegmentState r := by
  rcases h with h | h | h | h | h <;> simp [h, SegmentState]

theorem PhaseLaw.settled_of_still {s : State} (h : PhaseLaw s) (hstill : StillState s.rct.state) :
    s.rfx.phase = .none ∧ PhaseSettled s := by
  have hnone : s.rfx.phase = .none := by
    by_contra hne
    have := h.reflex.mp hne
    rcases hstill with e | e | e | e | e <;> simp [e] at this
  refine ⟨hnone, fun x hx => by simp [hnone] at hx, fun hb => ?_⟩
  have := h.approach.mp (by rw [hb]; simp)
  rcases hstill with e | e | e | e | e <;> simp [e] at this

/-- The output of the gate without a source, when no jam's back-off runs. -/
def zeroOutput : GateOutput := { vL := 0, vR := 0, wish := .stop, result := stillResult }

/-- In a still state an expiry sends zero and STOP (R89, R99). -/
theorem runGate_of_still {s : State} (hstill : StillState s.rct.state) (hphase : s.rfx.phase = .none) (length : Nat) :
    runGate length s = handOverGate zeroOutput s := by
  have hzero : gateCompute s = (zeroOutput, s) := by
    rw [gateCompute_of_no_source (gateSource_of_still hstill),
      brushWish_of_not_jam hstill.not_segment (fun m => by rw [hphase]; simp)]
    rfl
  rw [runGate, sendGate_eq_of_take (takeAtExpiry_of_none s (.inl hstill.not_segment)), hzero, segmentElapsed_of_not_moving]
  rw [handOverGate_eq]
  exact hstill.not_segment

/-- Settles O40. -/
theorem expirySendsSetpointThenBrush : Obligations.ExpirySendsSetpointThenBrush := by
  intro s hdue hqueue
  obtain ⟨p, hp, -⟩ := id hdue
  obtain ⟨a, b, ha, hb, hu⟩ := (expirePeriod_sent (expiryOrder s) p.length (nextChoice s)).gate
  have hframe := (gateCompute_gateFrame a).toExpiryFrame
  have hdli : (gateCompute a).2.dli = s.dli := hframe.dli.trans ha.dli
  have hpot : (gateCompute a).2.pot = s.pot := hframe.pot.trans ha.pot
  have hcal : a.tbs = s.tbs := ha.tbs
  obtain ⟨command, hframes, hset, hwish⟩ := handOverGate_sent (s := (gateCompute a).2)
    (by rw [DriveQueueLaw, hdli]; exact hqueue) (gateCompute a).1
  rw [← hb, ← hu.dli] at hframes hset
  rw [← hb] at hwish
  have hbdli := hu.dli
  have hsent : (sendSetpoint (gateCompute a).1.vL (gateCompute a).1.vR (gateCompute a).2).dli.brushState = s.dli.brushState ∧
      (sendSetpoint (gateCompute a).1.vL (gateCompute a).1.vR (gateCompute a).2).dli.reservation = s.dli.reservation ∧
      (sendSetpoint (gateCompute a).1.vL (gateCompute a).1.vR (gateCompute a).2).dli.pendingBrush = s.dli.pendingBrush ∧
      (sendSetpoint (gateCompute a).1.vL (gateCompute a).1.vR (gateCompute a).2).pot = s.pot := by
    rw [sendSetpoint_eq, hdli]
    exact ⟨rfl, rfl, rfl, hpot⟩
  obtain ⟨hbrush, hres, hpending, hnow⟩ := hsent
  have hbound := gateCompute_natAbs_le a
  rw [hcal] at hbound
  have hkept : ExpiryFrame (gateCompute a).2 { b with dli := (gateCompute a).2.dli } := by
    rw [hb, handOverGate_eq]
    exact ⟨rfl, rfl, rfl, rfl⟩
  have hupot : (expirePeriod (expiryOrder s) p.length (nextChoice s)).pot = s.pot := hu.pot.trans (hkept.pot.trans hpot)
  have hutbs : (expirePeriod (expiryOrder s) p.length (nextChoice s)).tbs = s.tbs :=
    hu.tbs.trans (hkept.tbs.trans (hframe.tbs.trans hcal))
  refine ⟨_, (gateCompute a).1.vL, (gateCompute a).1.vR, command, exec_controlPeriodExpiry_of_due hp hdue, ?_, hbound.1, hbound.2,
    hset, expirePeriod_modeQueue _ _ _, ?_, hupot, hutbs, hu.snp.trans (hkept.snp.trans (hframe.snp.trans ha.snp)), ?_,
    fun hr hw => ?_, fun hr hw => ?_, fun r hr => ?_, fun hstill hphase hempty => ?_⟩
  · rw [hframes, hdli]
  · rw [expirePeriod_period, hupot, hutbs]
  · rw [hbdli, hwish.brushState, hbrush]
  · rw [hbdli, hwish.lastWish] at hw
    rw [hbdli, ← hpending]
    exact hwish.same (hres.trans hr) (hw.trans hbrush.symm)
  · rw [hbdli, hwish.lastWish] at hw
    rw [hbdli, hwish.lastWish, ← hnow]
    exact hwish.other (hres.trans hr) (by rw [hbrush]; exact hw)
  · rw [hbdli, hwish.lastWish]
    exact hwish.reserved r (hres.trans hr)
  · obtain ⟨hnone, hsettled⟩ := hphase.settled_of_still hstill
    have hrun := expirePeriod_of_settled hempty hsettled p.length
    rw [runGate_of_still (s := nextChoice s) hstill hnone] at hrun
    obtain ⟨command', -, hset', hwish'⟩ := handOverGate_sent (s := nextChoice s) hqueue zeroOutput
    rw [hrun, beginPeriod_dli, hset'] at hset
    rw [hrun, beginPeriod_dli, hwish'.lastWish]
    rw [handOverGate_eq]
    exact ⟨(congrArg Prod.fst hset).symm, (congrArg Prod.snd hset).symm, rfl, rfl, rfl, rfl, rfl, rfl, rfl, rfl⟩

end Sys2Proof.Machine
end

section
/-! The gate's part of an expiry with its segment, the changes of phase, and the take of a mode command (R82 to R84, R88,
R109 to R115, R127, R149). -/

namespace Sys2Proof.Machine

/-! ## The elapsed time of the segment (R83) -/

section
variable {s : State} {c : CurrentSegment} {length : Nat}

theorem segmentElapsed_of_current (hm : SegmentState s.rct.state) (hc : s.mgt.current = some c) :
    segmentElapsed length s = progressSegment { c with elapsed := c.elapsed + length } s := by
  simp only [segmentElapsed, hc, moving_iff.mpr hm, if_true]

theorem segmentElapsed_of_none (hc : s.mgt.current = none) : segmentElapsed length s = s := by
  simp only [segmentElapsed, hc]

theorem completeSegment_completed (g : Segment) (s : State) :
    (completeSegment g s).mgt.completed = (s.mgt.completed + 1) % 65536 := by
  by_cases hstep : s.rct.state = .step
  · rw [completeSegment_of_step hstep]
  · cases hq : s.mgt.queue with
    | nil => rw [completeSegment_of_starved hstep hq]; rfl
    | cons next rest => rw [completeSegment_of_next hstep hq]

/-- The elapsed time changes neither the window nor the gate's result. -/
theorem segmentElapsed_keeps (length : Nat) (s : State) :
    (segmentElapsed length s).twn = s.twn ∧ (segmentElapsed length s).mgt.result = s.mgt.result := by
  by_cases hm : SegmentState s.rct.state
  · cases hc : s.mgt.current with
    | none => rw [segmentElapsed_of_none hc]; exact ⟨rfl, rfl⟩
    | some c =>
      rw [segmentElapsed_of_current hm hc]
      unfold progressSegment
      split
      · by_cases hstep : s.rct.state = .step
        · rw [completeSegment_of_step hstep]
          exact ⟨rfl, rfl⟩
        · cases hq : s.mgt.queue with
          | nil => rw [completeSegment_of_starved hstep hq]; exact ⟨rfl, rfl⟩
          | cons next rest => rw [completeSegment_of_next hstep hq]; exact ⟨rfl, rfl⟩
      · exact ⟨rfl, rfl⟩
  · rw [segmentElapsed_of_not_moving hm]
    exact ⟨rfl, rfl⟩

end

/-- The state that the gate's hand-over leaves: the run state and the Reflex Unit as they were, and the segments. -/
theorem handOverGate_gateCompute (h : State) :
    let sent := handOverGate (gateCompute h).1 (gateCompute h).2
    sent.rct = h.rct ∧ sent.mgt = { h.mgt with result := (gateCompute h).1.result } ∧ sent.rfx = h.rfx ∧ sent.dau = h.dau ∧
      sent.twn = (gateCompute h).2.twn := by
  have hw := (gateCompute_frame h).1
  intro sent
  have hsent : sent = _ := handOverGate_eq (gateCompute h).1 (gateCompute h).2
  rw [hsent]
  exact ⟨hw.rct, by rw [hw.mgt], hw.rfx, hw.dau, rfl⟩

theorem count_wraps {n : Nat} (h : n ≤ 65535) : (n + 1) % 65536 = if n = 65535 then 0 else n + 1 := by
  split <;> omega

theorem takeWish_lasts (w : BrushState) (s : State) :
    (takeWish w s).dli.lastSetpoints = s.dli.lastSetpoints ∧ (takeWish w s).dli.lastWish = w := by
  cases hr : s.dli.reservation with
  | some r => rw [takeWish_of_reserved hr]; exact ⟨rfl, rfl⟩
  | none =>
    by_cases hw : w = s.dli.brushState
    · rw [takeWish_of_same hr hw]
      exact ⟨rfl, rfl⟩
    · rw [takeWish_of_other hr hw]
      exact ⟨rfl, rfl⟩

theorem handOverGate_lasts (g : GateOutput) (s : State) :
    (handOverGate g s).dli.lastSetpoints = (g.vL, g.vR) ∧ (handOverGate g s).dli.lastWish = g.wish := by
  have h := takeWish_lasts g.wish (sendSetpoint g.vL g.vR s)
  refine ⟨h.1.trans ?_, h.2⟩
  rw [sendSetpoint_eq]

/-- A head taken at an expiry changes neither the run state nor the completed count (R82). -/
theorem takeAtExpiry_keeps (s : State) :
    (takeAtExpiry s).rct.state = s.rct.state ∧ (takeAtExpiry s).mgt.completed = s.mgt.completed := by
  unfold takeAtExpiry takeHead
  split
  · cases s.mgt.queue <;> exact ⟨rfl, rfl⟩
  · exact ⟨rfl, rfl⟩

/-- Settles O41. -/
theorem expiryRunsTheGateThenTheSegment : Obligations.ExpiryRunsTheGateThenTheSegment := by
  intro p s hp hdue hq hhalt hbump hcount
  let h := takeAtExpiry (nextChoice s)
  let sent := handOverGate (gateCompute h).1 (gateCompute h).2
  have hexec : exec .controlPeriodExpiry s = .next (arbitrate (beginPeriod (segmentElapsed p.length sent))) := by
    rw [exec_controlPeriodExpiry_of_due hp hdue, expirePeriod_of_settled hq ⟨hhalt, hbump⟩]
    rfl
  obtain ⟨hrct, hmgt, -, -, htwn⟩ := handOverGate_gateCompute h
  have hqueue : sent.mgt.queue = h.mgt.queue := by rw [hmgt]
  have hcurrent : sent.mgt.current = h.mgt.current := by rw [hmgt]
  have hdone : sent.mgt.completed = h.mgt.completed := by rw [hmgt]
  have hkeeps := segmentElapsed_keeps p.length sent
  have hdli := (segmentElapsed_gateFrame sent p.length).dli
  obtain ⟨hstate, hcompleted⟩ : h.rct.state = s.rct.state ∧ h.mgt.completed = s.mgt.completed := takeAtExpiry_keeps (nextChoice s)
  refine ⟨h, _, hexec, fun g rest hm hc hqueue => ?_, fun hnone => ?_, ?_, ?_, ?_, ?_, fun hnone => ?_, fun c hm hc => ?_⟩
  · exact takeAtExpiry_of_head (s := nextChoice s) hm hc hqueue
  · exact takeAtExpiry_of_none (nextChoice s) hnone
  · rw [beginPeriod_dli, hdli]
    exact (handOverGate_lasts _ _).1
  · rw [beginPeriod_dli, hdli]
    exact (handOverGate_lasts _ _).2
  · exact hkeeps.2.trans (by rw [hmgt])
  · exact hkeeps.1.trans htwn
  · have hidle : segmentElapsed p.length sent = sent := by
      rcases hnone with hn | hn
      · exact segmentElapsed_of_not_moving (by rw [hrct, hstate]; exact hn) _
      · exact segmentElapsed_of_none (hcurrent.trans hn)
    rw [hidle]
    exact ⟨hrct, hqueue, hcurrent, hdone⟩
  · have helapsed : segmentElapsed p.length sent = progressSegment { c with elapsed := c.elapsed + p.length } sent :=
      segmentElapsed_of_current (by rw [hrct, hstate]; exact hm) (hcurrent.trans hc)
    rw [helapsed]
    intro count
    refine ⟨fun hshort => ?_, fun hk hreached => ?_⟩
    · have hincomplete : ¬({ c with elapsed := c.elapsed + p.length } : CurrentSegment).complete = true := by
        rw [complete_iff]
        rintro (⟨hk, hreached⟩ | ⟨hk, hreached⟩) <;> rcases hshort with ⟨hk', hlt⟩ | ⟨hk', hlt⟩
        · exact Nat.not_le.mpr hlt hreached
        · rw [hk] at hk'; cases hk'
        · rw [hk] at hk'; cases hk'
        · exact Nat.not_le.mpr hlt hreached
      rw [progressSegment_of_incomplete hincomplete]
      exact ⟨hrct, hqueue, hdone.trans hcompleted, rfl⟩
    · have hcomplete : ({ c with elapsed := c.elapsed + p.length } : CurrentSegment).complete = true :=
        complete_iff.mpr (.inr ⟨hk, hreached⟩)
      have hwrap : (sent.mgt.completed + 1) % 65536 = count := by rw [hdone, hcompleted, count_wraps hcount]
      have hrun : sent.rct.state = s.rct.state := by rw [hrct, hstate]
      rw [progressSegment_of_complete hcomplete]
      refine ⟨(completeSegment_completed _ _).trans hwrap, fun hstep => ?_, fun hne hempty => ?_, fun g rest hne hnext => ?_⟩
      · rw [completeSegment_of_step (hrun.trans hstep)]
        exact ⟨rfl, rfl, hqueue⟩
      · rw [completeSegment_of_starved (by rw [hrun]; exact hne) (hqueue.trans hempty)]
        exact ⟨hrct, rfl, rfl, raise_flagged _ _ _⟩
      · rw [completeSegment_of_next (by rw [hrun]; exact hne) (hqueue.trans hnext)]
        exact ⟨hrct, rfl, rfl, rfl⟩

/-! ## The changes of phase (R127, R149) -/

theorem clampWheel_zero (limit : Nat) : clampWheel limit 0 = 0 := by
  unfold clampWheel clampInt
  omega

/-- A source of zero speeds gives zero. -/
theorem gateCompute_of_zero_source {s : State} (h : gateSource s = some (0, 0)) :
    ((gateCompute s).1.vL, (gateCompute s).1.vR) = (0, 0) := by
  rw [gateCompute_of_source h, clampWheel_zero, if_pos (show centreSpeed 0 0 = 0 from rfl)]
  simp only [spin, clampWheel_zero]

theorem gateSource_of_bumpHalt {s : State} (hr : s.rct.state = .approach) (hp : s.dau.phase = .bumpHalt) :
    gateSource s = some (0, 0) := by
  rw [gateSource_of_approach hr, approachSource, hp]

/-- With no mode command waiting the changes of phase come before or after the gate. -/
theorem expirePeriod_of_no_mode {s : State} (hq : s.rct.modeQueue = []) (length : Nat) :
    expirePeriod (expiryOrder s) length (nextChoice s) = beginPeriod (runGate length (changePhases (nextChoice s))) ∨
      expirePeriod (expiryOrder s) length (nextChoice s) = beginPeriod (changePhases (runGate length (nextChoice s))) := by
  have htake : (expiryOrder s).takeFirst = true := by
    unfold expiryOrder
    rw [hq]
    rfl
  have hmode := takeMode_of_empty (s := nextChoice s) hq
  cases ho : (expiryOrder s).phaseFirst
  · exact .inr (by simp only [expirePeriod, htake, ho, if_true, if_false, id, hmode, Bool.false_eq_true])
  · exact .inl (by simp only [expirePeriod, htake, ho, if_true, id, hmode])

section
variable {s : State}

theorem runGate_of_not_moving (hm : ¬SegmentState s.rct.state) (length : Nat) :
    runGate length s = handOverGate (gateCompute s).1 (gateCompute s).2 := by
  rw [runGate, sendGate_eq_of_take (takeAtExpiry_of_none s (.inl hm)), segmentElapsed_of_not_moving]
  rw [(handOverGate_gateCompute s).1]
  exact hm

/-- An expiry without a segment, in both orders of its change of phase (R88). -/
structure HaltEnded (s u : State) : Prop where
  rct : u.rct = s.rct
  rfx : u.rfx = { s.rfx with phase := s.rfx.phase.begun s.pot.timeCount }
  dau : u.dau = s.dau.begun s.pot.timeCount
  sent : ∃ x : State, (x = s ∨ x = changePhases s) ∧ u.dli.lastSetpoints = ((gateCompute x).1.vL, (gateCompute x).1.vR)

theorem expirePeriod_haltEnded (hq : s.rct.modeQueue = []) (hm : ¬SegmentState s.rct.state) (length : Nat) :
    HaltEnded (nextChoice s) (expirePeriod (expiryOrder s) length (nextChoice s)) := by
  have hphase := changePhases_eq (nextChoice s)
  rcases expirePeriod_of_no_mode hq length with e | e <;> rw [e]
  · have hrun : ¬SegmentState (changePhases (nextChoice s)).rct.state := by
      rw [(changePhases_eq (nextChoice s))]
      exact hm
    obtain ⟨hrct, -, hrfx, hdau, -⟩ := handOverGate_gateCompute (changePhases (nextChoice s))
    rw [runGate_of_not_moving hrun]
    refine ⟨hrct.trans ?_, hrfx.trans ?_, hdau.trans ?_, _, .inr rfl, (handOverGate_lasts _ _).1⟩ <;> rw [hphase]
  · obtain ⟨hrct, -, hrfx, hdau, -⟩ := handOverGate_gateCompute (nextChoice s)
    have hpot : (handOverGate (gateCompute (nextChoice s)).1 (gateCompute (nextChoice s)).2).pot = s.pot := by
      rw [handOverGate_eq]
      exact (gateCompute_gateFrame _).pot
    rw [runGate_of_not_moving (s := nextChoice s) hm, changePhases_eq]
    refine ⟨hrct, ?_, ?_, _, .inl rfl, (handOverGate_lasts _ _).1⟩
    · simp only [beginPeriod_rfx, hrfx, hpot]
      rfl
    · simp only [beginPeriod_dau, hdau, hpot]
      rfl

end

/-- Settles O42. -/
theorem expiryEndsTheHalt : Obligations.ExpiryEndsTheHalt := by
  intro s hdue hq hlaw
  obtain ⟨p, hp, -⟩ := id hdue
  refine ⟨fun h hhalt => ?_, fun hbump => ?_⟩
  · have hstate : s.rct.state = .reflex := hlaw.reflex.mp (by rw [hhalt]; simp)
    have hdau : s.dau.phase = .none := by
      by_contra hne
      have := hlaw.approach.mp hne
      simp [hstate] at this
    obtain ⟨hrct, hrfx, hdaub, x, hx, hsent⟩ := expirePeriod_haltEnded hq (by rw [hstate]; simp [SegmentState]) p.length
    rw [nextChoice_rfx, hhalt] at hrfx
    have hbegun : s.dau.begun s.pot.timeCount = s.dau := if_neg (by rw [hdau]; simp)
    refine ⟨_, exec_controlPeriodExpiry_of_due hp hdue, hrct, hdaub.trans hbegun, hrfx, ?_⟩
    rw [hsent]
    rcases hx with rfl | rfl
    · rw [gateCompute_of_no_source (gateSource_of_halt (s := nextChoice s) hstate hhalt)]
      exact .inl rfl
    · rw [hrfx]
      have halike : GateAlike { s with rfx := { s.rfx with phase := .back h { travel := 0, start := s.pot.timeCount } } }
          (changePhases (nextChoice s)) := by
        rw [changePhases_eq, nextChoice_rfx, hhalt]
        exact ⟨rfl, rfl, rfl, rfl, rfl, hbegun, rfl⟩
      rw [halike.gateCompute]
      exact .inr rfl
  · have hstate : s.rct.state = .approach := hlaw.approach.mp (by rw [hbump]; simp)
    have hphase : s.rfx.phase = .none := by
      by_contra hne
      have := hlaw.reflex.mp hne
      simp [hstate] at this
    obtain ⟨hrct, hrfx, hdau, x, hx, hsent⟩ := expirePeriod_haltEnded hq (by rw [hstate]; simp [SegmentState]) p.length
    have hbegun : s.dau.begun s.pot.timeCount =
        { s.dau with phase := .bumpReverse, reverse := some { travel := 0, start := s.pot.timeCount } } := if_pos hbump
    have hkept : { s.rfx with phase := s.rfx.phase.begun s.pot.timeCount } = s.rfx := by
      rw [show s.rfx.phase.begun s.pot.timeCount = s.rfx.phase by rw [hphase]; rfl]
    refine ⟨_, exec_controlPeriodExpiry_of_due hp hdue, hrct, hrfx.trans hkept, hdau.trans hbegun, ?_⟩
    rw [hsent]
    rcases hx with rfl | rfl
    · exact .inl (gateCompute_of_zero_source (gateSource_of_bumpHalt (s := nextChoice s) hstate hbump))
    · rw [hdau]
      have halike : GateAlike { s with dau := s.dau.begun s.pot.timeCount } (changePhases (nextChoice s)) := by
        rw [changePhases_eq]
        exact ⟨rfl, rfl, rfl, congrArg ReflexUnit.phase hkept, rfl, rfl, rfl⟩
      rw [halike.gateCompute]
      exact .inr rfl

end Sys2Proof.Machine
end

section
/-! The take of a mode command, and its order with the gate at an expiry (R88, R109 to R115). -/

namespace Sys2Proof.Machine

/-! ## The legality table (R110) -/

/-- The states that a command taken may leave (R111 to R115). -/
def takenStates : ModeKind → List RunState
  | .stop => [.idle]
  | .hold => [.hold]
  | .resume => [.run]
  | .creep => [.creep]
  | .step => [.step, .hold]
  | .returnHome => [.homing]
  | .undock => [.undocking]

theorem legalityTable_eq (up : Bool) (r : RunState) (k : ModeKind) :
    legalityTable up r k = if legal k r up then takenStates k else [] := by
  cases r <;> cases k <;> rfl

theorem legalityTable_eq_nil_iff {up : Bool} {r : RunState} {k : ModeKind} :
    legalityTable up r k = [] ↔ legal k r up = false := by
  rw [legalityTable_eq]
  cases legal k r up
  · simp
  · cases k <;> simp [takenStates]

/-- A command into a state that runs segments is legal from IDLE, HOLD and such states but HOMING alone. -/
theorem legal_moving {up : Bool} {r : RunState} {k : ModeKind} (h : legal k r up = true)
    (hk : k = .resume ∨ k = .creep ∨ k = .step ∨ k = .returnHome) :
    r = .run ∨ r = .creep ∨ r = .step ∨ r = .hold ∨ r = .idle := by
  rcases hk with rfl | rfl | rfl | rfl <;> cases r <;> simp [legal] at h ⊢

theorem legal_undock {up : Bool} {r : RunState} (h : legal .undock r up = true) : r = .docked := by
  cases r <;> simp [legal] at h ⊢

/-! ## The take by the command (R111 to R115) -/

/-- The inputs at an entry to a state that runs segments (R123). -/
def armedFrom (r : RunState) (a : Armed) : Armed := if r = .run ∨ r = .creep ∨ r = .step then a else allArmed

/-- A change to a state that runs segments, from a state that a command may leave for it (R114, R123, R136). -/
theorem changeRun_of_moving {r : RunState} {s : State} (hr : SegmentState r)
    (hs : s.rct.state = .run ∨ s.rct.state = .creep ∨ s.rct.state = .step ∨ s.rct.state = .hold ∨ s.rct.state = .idle) :
    changeRun r s = { s with
      rct := { s.rct with state := r, pendingStep := s.rct.pendingStep && r == .step }
      rfx := { s.rfx with phase := .none, armed := armedFrom s.rct.state s.rfx.armed } } := by
  have harmed : (if r.moving && !s.rct.state.moving then allArmed else s.rfx.armed) = armedFrom s.rct.state s.rfx.armed := by
    rw [moving_iff.mpr hr, armedFrom]
    rcases hs with e | e | e | e | e <;> simp [e, RunState.moving]
  have hdock : s.rct.state.docking = false := by
    rcases hs with e | e | e | e | e <;> rw [e] <;> rfl
  have hkeep : r.keepsSuspicion = true ∧ r ≠ .reflex := by
    rcases hr with e | e | e | e <;> simp [e, RunState.keepsSuspicion, RunState.moving]
  rw [changeRun_eq, harmed, hdock, hkeep.1]
  simp [hkeep.2]

section
variable {s : State} {c : ModeCommand} {rest : List ModeCommand}

/-- The state in `r` that a command into a state that runs segments leaves. -/
def entered (r : RunState) (rest : List ModeCommand) (s : State) : State := { s with
  rct := { s.rct with state := r, modeQueue := rest, pendingStep := false }
  rfx := { s.rfx with phase := .none, armed := armedFrom s.rct.state s.rfx.armed } }

/-- The state in `r` that a command into a still state leaves. -/
def stopped (r : RunState) (rest : List ModeCommand) (s : State) : State := { s with
  rct := { s.rct with state := r, modeQueue := rest, pendingStep := false }
  rfx := { s.rfx with phase := .none, suspects := noSuspects }
  dau := if s.rct.state = .approach ∨ s.rct.state = .docked ∨ s.rct.state = .undocking then idleDock else s.dau }

theorem changeRun_withModes_still {r : RunState} (hk : r.keepsSuspicion = false) (hr : r ≠ .reflex) (hd : r.docking = false) :
    changeRun r (withModes rest s) = stopped r rest s := by
  rw [changeRun_of_still hk hr]
  simp only [dau_of_docking (next := r) hd]
  rfl

theorem changeRun_withModes_moving {r : RunState} (hr : SegmentState r) (hstep : r ≠ .step)
    (hs : s.rct.state = .run ∨ s.rct.state = .creep ∨ s.rct.state = .step ∨ s.rct.state = .hold ∨ s.rct.state = .idle) :
    changeRun r (withModes rest s) = entered r rest s := by
  rw [changeRun_of_moving (s := withModes rest s) hr hs, beq_eq_false_iff_ne.mpr hstep, Bool.and_false]
  rfl

theorem carryOut_stop (hk : c.kind = .stop) : carryOut c (withModes rest s) =
    { stopped .idle rest s with mgt := { s.mgt with queue := [], current := none, starved := false } } := by
  simp only [carryOut, hk]
  rw [takeStop, changeRun_of_still rfl (by simp)]
  simp only [dau_of_docking (next := .idle) rfl]
  rfl

theorem carryOut_hold (hk : c.kind = .hold) : carryOut c (withModes rest s) =
    if s.rct.state = .approach then raise .dockFail (.dockFailure .held) (stopped .hold rest s) else stopped .hold rest s := by
  simp only [carryOut, hk]
  rw [takeHold, changeRun_withModes_still rfl (by simp) rfl]
  rfl

theorem carryOut_step (hk : c.kind = .step) (hl : legal c.kind s.rct.state (bothUp s) = true) : carryOut c (withModes rest s) =
    if s.mgt.current = none ∧ s.mgt.queue = [] then stopped .hold rest s
    else { entered .step rest s with rct := { (entered .step rest s).rct with pendingStep := s.mgt.current.isNone } } := by
  simp only [carryOut, hk]
  rw [takeStep, changeRun_withModes_still rfl (by simp) rfl, changeRun_of_moving (r := .step) (s := withModes rest s)
    (.inr (.inr (.inl rfl))) (legal_moving hl (by simp [hk]))]
  by_cases h : s.mgt.current = none ∧ s.mgt.queue = []
  · rw [if_pos h]
    exact if_pos (by simp [withModes, h])
  · rw [if_neg h]
    refine (if_neg ?_).trans rfl
    simpa [withModes] using h

theorem carryOut_undock (hk : c.kind = .undock) (hl : legal c.kind s.rct.state (bothUp s) = true) : carryOut c (withModes rest s) =
    { s with
      rct := { s.rct with state := .undocking, modeQueue := rest, pendingStep := false }
      rfx := { s.rfx with phase := .none }
      dau := { idleDock with reverse := some { travel := 0, start := s.pot.timeCount } } } := by
  have hdocked : s.rct.state = .docked := legal_undock (hk ▸ hl)
  simp only [carryOut, hk]
  rw [takeUndock, changeRun_eq]
  simp [withModes, hdocked, RunState.keepsSuspicion, RunState.moving, RunState.docking]

theorem carryOut_state (hl : legal c.kind s.rct.state (bothUp s) = true) :
    (carryOut c (withModes rest s)).rct.state ∈ takenStates c.kind := by
  cases hk : c.kind with
  | stop => rw [carryOut_stop hk]; exact List.mem_singleton.mpr rfl
  | hold =>
    rw [carryOut_hold hk]
    split <;> exact List.mem_singleton.mpr rfl
  | step =>
    rw [carryOut_step hk hl]
    split
    · exact List.mem_of_mem_tail (List.mem_singleton.mpr rfl)
    · exact List.mem_cons_self
  | undock => rw [carryOut_undock hk hl]; exact List.mem_singleton.mpr rfl
  | resume => simp only [carryOut, hk]; exact List.mem_singleton.mpr rfl
  | creep => simp only [carryOut, hk]; exact List.mem_singleton.mpr rfl
  | returnHome => simp only [carryOut, hk]; exact List.mem_singleton.mpr rfl

/-- The take of a legal command that enters a state that runs segments. -/
theorem carryOut_moving {r : RunState} (hl : legal c.kind s.rct.state (bothUp s) = true)
    (hk : c.kind = .resume ∨ c.kind = .creep ∨ c.kind = .step ∨ c.kind = .returnHome) (hr : SegmentState r) (hstep : r ≠ .step) :
    changeRun r (withModes rest s) = entered r rest s := changeRun_withModes_moving hr hstep (legal_moving hl hk)

end

/-! ## What a take does not look at (R109)

A take reads neither the counter of choices nor the period, and drops the phases that it does not keep. -/

/-- A state with its counter of choices, its period, its reflex phase and its DAU's record changed. -/
def aside (n : Nat → Nat) (p : Option Period → Option Period) (x : ReflexPhase → ReflexPhase) (d : DockUnit → DockUnit)
    (s : State) : State := { s with
  choices := n s.choices
  mgt := { s.mgt with period := p s.mgt.period }
  rfx := { s.rfx with phase := x s.rfx.phase }
  dau := d s.dau }

section
variable {n : Nat → Nat} {p : Option Period → Option Period} {x : ReflexPhase → ReflexPhase} {d : DockUnit → DockUnit}
  {s : State} {c : ModeCommand} {rest : List ModeCommand}

theorem stopped_aside (hx : x .none = .none) (hd : d idleDock = idleDock) (r : RunState) :
    stopped r rest (aside n p x d s) = aside n p x d (stopped r rest s) := by
  have hdau := apply_ite d (s.rct.state = .approach ∨ s.rct.state = .docked ∨ s.rct.state = .undocking) idleDock s.dau
  rw [hd] at hdau
  unfold aside stopped
  simp only [hx, hdau]

theorem entered_aside (hx : x .none = .none) (r : RunState) :
    entered r rest (aside n p x d s) = aside n p x d (entered r rest s) := by
  unfold aside entered
  simp only [hx]

theorem carryOut_aside (hx : x .none = .none) (hd : d idleDock = idleDock)
    (hu : ∀ m, d { idleDock with reverse := m } = { idleDock with reverse := m })
    (hl : legal c.kind s.rct.state (bothUp s) = true) :
    carryOut c (withModes rest (aside n p x d s)) = aside n p x d (carryOut c (withModes rest s)) := by
  have hl' : legal c.kind (aside n p x d s).rct.state (bothUp (aside n p x d s)) = true := hl
  cases hk : c.kind with
  | stop =>
    rw [carryOut_stop hk, carryOut_stop hk, stopped_aside hx hd]
    rfl
  | hold =>
    rw [carryOut_hold hk, carryOut_hold hk, stopped_aside hx hd, apply_ite (aside n p x d)]
    rfl
  | step =>
    rw [carryOut_step hk hl, carryOut_step hk hl', stopped_aside hx hd, entered_aside hx, apply_ite (aside n p x d)]
    rfl
  | undock =>
    rw [carryOut_undock hk hl, carryOut_undock hk hl']
    unfold aside
    simp only [hx, hu]
  | resume =>
    simp only [carryOut, hk]
    rw [carryOut_moving hl (by simp [hk]) (.inl rfl) (by simp), carryOut_moving hl' (by simp [hk]) (.inl rfl) (by simp),
      entered_aside hx]
  | creep =>
    simp only [carryOut, hk]
    rw [takeCreep, takeCreep, carryOut_moving hl (by simp [hk]) (.inr (.inl rfl)) (by simp),
      carryOut_moving hl' (by simp [hk]) (.inr (.inl rfl)) (by simp), entered_aside hx]
    rfl
  | returnHome =>
    simp only [carryOut, hk]
    rw [carryOut_moving hl (by simp [hk]) (.inr (.inr (.inr rfl))) (by simp),
      carryOut_moving hl' (by simp [hk]) (.inr (.inr (.inr rfl))) (by simp), entered_aside hx]

theorem takeMode_aside (hx : x .none = .none) (hd : d idleDock = idleDock)
    (hu : ∀ m, d { idleDock with reverse := m } = { idleDock with reverse := m }) (s : State) :
    takeMode (aside n p x d s) = aside n p x d (takeMode s) := by
  cases hq : s.rct.modeQueue with
  | nil => rw [takeMode_of_empty hq, takeMode_of_empty (s := aside n p x d s) hq]
  | cons c rest =>
    cases hl : legal c.kind s.rct.state (bothUp s) with
    | false =>
      rw [takeMode_of_refused hq hl, takeMode_of_refused (s := aside n p x d s) hq hl]
      rfl
    | true =>
      rw [takeMode_of_legal hq hl, takeMode_of_legal (s := aside n p x d s) hq hl, carryOut_aside hx hd hu hl]

theorem takeMode_nextChoice (s : State) : takeMode (nextChoice s) = nextChoice (takeMode s) :=
  takeMode_aside (n := (· + 1)) (p := id) (x := id) (d := id) rfl rfl (fun _ => rfl) s

theorem takeMode_beginPeriod (s : State) : takeMode (beginPeriod s) = beginPeriod (takeMode s) := by
  have h := (takeMode_frame s).1
  refine (takeMode_aside (n := id) (p := fun _ => some { start := s.pot.timeCount, length := s.tbs.cal.controlPeriod })
    (x := id) (d := id) rfl rfl (fun _ => rfl) s).trans ?_
  unfold aside beginPeriod
  rw [h.pot, h.tbs]
  rfl

theorem takeMode_changePhases (s : State) : takeMode (changePhases s) = changePhases (takeMode s) := by
  have h := takeMode_aside (n := id) (p := id) (x := ReflexPhase.begun s.pot.timeCount) (d := DockUnit.begun s.pot.timeCount)
    rfl rfl (fun _ => rfl) s
  have hpot := (takeMode_frame s).1.pot
  rw [changePhases_eq, changePhases_eq]
  refine h.trans ?_
  simp only [aside, hpot, id]

theorem changePhases_settled (s : State) : PhaseSettled (changePhases s) := by
  rw [changePhases_eq]
  refine ⟨fun h hp => ?_, fun hp => ?_⟩
  · cases hs : s.rfx.phase <;> simp [hs, ReflexPhase.begun] at hp
  · unfold DockUnit.begun at hp
    split at hp
    · cases hp
    · exact absurd hp ‹_›

/-- A take keeps the period and the counter, and leaves no phase about to change where there was none. -/
theorem takeMode_keeps (s : State) :
    (takeMode s).mgt.period = s.mgt.period ∧ (takeMode s).choices = s.choices ∧ (PhaseSettled s → PhaseSettled (takeMode s)) := by
  have h : takeMode s = _ := takeMode_aside (n := fun _ => s.choices) (p := fun _ => s.mgt.period) (x := id) (d := id)
    rfl rfl (fun _ => rfl) s
  refine ⟨by rw [h]; rfl, by rw [h]; rfl, fun hs => ?_⟩
  rw [← changePhases_of_settled hs, takeMode_changePhases]
  exact changePhases_settled _

end

/-! ## The gate's part of an expiry with its changes of phase, in either order (R88) -/

/-- The parts of an expiry but the take, with the changes of phase before the gate or after it. -/
def gatePart (first : Bool) (length : Nat) (s : State) : State :=
  beginPeriod ((if first then id else changePhases) (runGate length ((if first then changePhases else id) s)))

/-- The same with the take after the gate. -/
def takePart (first : Bool) (length : Nat) (s : State) : State :=
  beginPeriod ((if first then id else changePhases) (gateThenTake length ((if first then changePhases else id) s)))

section
variable {s : State} {length : Nat}

theorem segmentElapsed_settled (h : PhaseSettled s) : PhaseSettled (segmentElapsed length s) := by
  by_cases hm : SegmentState s.rct.state
  · cases hc : s.mgt.current with
    | none => rw [segmentElapsed_of_none hc]; exact h
    | some c =>
      rw [segmentElapsed_of_current hm hc]
      unfold progressSegment
      split
      · by_cases hstep : s.rct.state = .step
        · rw [completeSegment_of_step hstep]
          exact ⟨fun _ => ReflexPhase.noConfusion, h.2⟩
        · cases hq : s.mgt.queue with
          | nil => rw [completeSegment_of_starved hstep hq]; exact h
          | cons next rest => rw [completeSegment_of_next hstep hq]; exact h
      · exact h
  · rw [segmentElapsed_of_not_moving hm]
    exact h

theorem takeAtExpiry_phases (s : State) : (takeAtExpiry s).rfx = s.rfx ∧ (takeAtExpiry s).dau = s.dau := by
  unfold takeAtExpiry takeHead
  split
  · cases s.mgt.queue <;> exact ⟨rfl, rfl⟩
  · exact ⟨rfl, rfl⟩

theorem sendGate_settled (h : PhaseSettled s) : PhaseSettled (sendGate s) := by
  obtain ⟨-, -, hrfx, hdau, -⟩ := handOverGate_gateCompute (takeAtExpiry s)
  obtain ⟨hr, hd⟩ := takeAtExpiry_phases s
  unfold PhaseSettled
  rw [sendGate, hrfx, hdau, hr, hd]
  exact h

theorem runGate_settled (h : PhaseSettled s) : PhaseSettled (runGate length s) := segmentElapsed_settled (sendGate_settled h)

theorem gateThenTake_settled (h : PhaseSettled s) : PhaseSettled (gateThenTake length s) := by
  rcases gateThenTake_cases length s with ⟨-, e⟩ | ⟨-, e⟩ <;> rw [e]
  · exact segmentElapsed_settled ((takeMode_keeps _).2.2 (sendGate_settled h))
  · exact (takeMode_keeps _).2.2 (runGate_settled h)

theorem gatePart_of_settled (h : PhaseSettled s) (first : Bool) : gatePart first length s = beginPeriod (runGate length s) := by
  unfold gatePart
  cases first
  · simp only [if_false, Bool.false_eq_true, id, changePhases_of_settled (runGate_settled h)]
  · simp only [if_true, id, changePhases_of_settled h]

theorem takePart_of_settled (h : PhaseSettled s) (first : Bool) : takePart first length s = beginPeriod (gateThenTake length s) := by
  unfold takePart
  cases first
  · simp only [if_false, Bool.false_eq_true, id, changePhases_of_settled (gateThenTake_settled h)]
  · simp only [if_true, id, changePhases_of_settled h]

theorem expiryOrder_phaseFirst (s : State) :
    (PhaseSettled s → (expiryOrder s).phaseFirst = true) ∧
      (¬PhaseSettled s → (expiryOrder s).phaseFirst = Config.phaseBeforeGate s.choices) := by
  unfold expiryOrder PhaseSettled
  cases hp : s.rfx.phase <;> by_cases hd : s.dau.phase = .bumpHalt <;> simp [hd]

/-- An expiry with the take before the gate, or with nothing to take. -/
theorem exec_expiry_of_takeFirst {p : Period} (hp : s.mgt.period = some p) (hdue : DueAt s .controlPeriodExpiry)
    (ht : s.rct.modeQueue = [] ∨ Config.takeBeforeGate s.choices = true) : exec .controlPeriodExpiry s =
      .next (arbitrate (gatePart (Config.phaseBeforeGate s.choices) p.length (takeMode (nextChoice s)))) := by
  have hfirst : (expiryOrder s).takeFirst = true := by
    rcases ht with h | h <;> simp [expiryOrder, h]
  have hexec : expirePeriod (expiryOrder s) p.length (nextChoice s) =
      gatePart (expiryOrder s).phaseFirst p.length (takeMode (nextChoice s)) := by
    simp only [expirePeriod, hfirst, if_true]
    rfl
  rw [exec_controlPeriodExpiry_of_due hp hdue, hexec]
  by_cases h : PhaseSettled s
  · have htaken := (takeMode_keeps (nextChoice s)).2.2 h
    rw [gatePart_of_settled htaken, gatePart_of_settled htaken]
  · rw [(expiryOrder_phaseFirst s).2 h]

theorem exec_expiry_of_no_mode {p : Period} (hp : s.mgt.period = some p) (hdue : DueAt s .controlPeriodExpiry)
    (hq : s.rct.modeQueue = []) : exec .controlPeriodExpiry s =
      .next (arbitrate (gatePart (Config.phaseBeforeGate s.choices) p.length (nextChoice s))) := by
  rw [exec_expiry_of_takeFirst hp hdue (.inl hq), takeMode_of_empty (s := nextChoice s) hq]

/-- An expiry with the take after the gate. -/
theorem exec_expiry_of_gateFirst {p : Period} (hp : s.mgt.period = some p) (hdue : DueAt s .controlPeriodExpiry)
    (hq : s.rct.modeQueue ≠ []) (ht : Config.takeBeforeGate s.choices = false) : exec .controlPeriodExpiry s =
      .next (arbitrate (takePart (Config.phaseBeforeGate s.choices) p.length (nextChoice s))) := by
  have hfirst : (expiryOrder s).takeFirst = false := by simp [expiryOrder, hq, ht]
  have hexec : expirePeriod (expiryOrder s) p.length (nextChoice s) =
      takePart (expiryOrder s).phaseFirst p.length (nextChoice s) := by
    simp only [expirePeriod, hfirst, if_false, Bool.false_eq_true]
    rfl
  rw [exec_controlPeriodExpiry_of_due hp hdue, hexec]
  by_cases h : PhaseSettled s
  · rw [takePart_of_settled (s := nextChoice s) h, takePart_of_settled (s := nextChoice s) h]
  · rw [(expiryOrder_phaseFirst s).2 h]

end

/-! ### The mode commands beside the gate -/

theorem takeAtExpiry_withModes (l : List ModeCommand) (s : State) : takeAtExpiry (withModes l s) = withModes l (takeAtExpiry s) := by
  by_cases hm : SegmentState s.rct.state ∧ s.mgt.current = none
  · obtain ⟨hm, hc⟩ := hm
    cases hq : s.mgt.queue with
    | nil => rw [takeAtExpiry_of_none s (.inr (.inr hq)), takeAtExpiry_of_none (withModes l s) (.inr (.inr hq))]
    | cons g rest =>
      rw [takeAtExpiry_of_head hm hc hq, takeAtExpiry_of_head (s := withModes l s) hm hc hq]
      rfl
  · have hnone : ¬SegmentState s.rct.state ∨ s.mgt.current ≠ none ∨ s.mgt.queue = [] := by tauto
    rw [takeAtExpiry_of_none s hnone, takeAtExpiry_of_none (withModes l s) hnone]

theorem handOverGate_withModes (l : List ModeCommand) (g : GateOutput) (s : State) :
    handOverGate g (withModes l s) = withModes l (handOverGate g s) := by
  rw [handOverGate_eq g (withModes l s), handOverGate_dli_congr (t := withModes l s) (s := s) rfl rfl, handOverGate_eq g s]
  rfl

theorem sendGate_withModes (l : List ModeCommand) (s : State) : sendGate (withModes l s) = withModes l (sendGate s) := by
  have halike : GateAlike (takeAtExpiry s) (withModes l (takeAtExpiry s)) := ⟨rfl, rfl, rfl, rfl, rfl, rfl, rfl⟩
  have hwindow : beside (withModes l (takeAtExpiry s)) (gateCompute (takeAtExpiry s)).2 =
      withModes l (gateCompute (takeAtExpiry s)).2 := by
    rw [(gateCompute_frame (takeAtExpiry s)).1]
    rfl
  rw [sendGate, takeAtExpiry_withModes, halike.gateCompute, hwindow]
  exact handOverGate_withModes l _ _

theorem completeSegment_withModes (l : List ModeCommand) (g : Segment) (s : State) :
    completeSegment g (withModes l s) = withModes l (completeSegment g s) := by
  by_cases hstep : s.rct.state = .step
  · rw [completeSegment_of_step hstep, completeSegment_of_step (s := withModes l s) hstep]
    rfl
  · cases hq : s.mgt.queue with
    | nil =>
      rw [completeSegment_of_starved hstep hq, completeSegment_of_starved (s := withModes l s) hstep hq]
      rfl
    | cons next rest =>
      rw [completeSegment_of_next hstep hq, completeSegment_of_next (s := withModes l s) hstep hq]
      rfl

theorem runGate_withModes (l : List ModeCommand) (length : Nat) (s : State) :
    runGate length (withModes l s) = withModes l (runGate length s) := by
  rw [runGate, runGate, sendGate_withModes]
  by_cases hm : SegmentState (sendGate s).rct.state
  · cases hc : (sendGate s).mgt.current with
    | none => rw [segmentElapsed_of_none hc, segmentElapsed_of_none (s := withModes l (sendGate s)) hc]
    | some c =>
      rw [segmentElapsed_of_current hm hc, segmentElapsed_of_current (s := withModes l (sendGate s)) hm hc]
      unfold progressSegment
      split
      · exact completeSegment_withModes l _ _
      · rfl
  · rw [segmentElapsed_of_not_moving hm, segmentElapsed_of_not_moving (s := withModes l (sendGate s)) hm]

theorem changePhases_withModes (l : List ModeCommand) (s : State) : changePhases (withModes l s) = withModes l (changePhases s) := by
  rw [changePhases_eq, changePhases_eq]
  rfl

theorem gatePart_withModes (first : Bool) (l : List ModeCommand) (length : Nat) (s : State) :
    gatePart first length (withModes l s) = withModes l (gatePart first length s) := by
  unfold gatePart
  cases first
  · simp only [if_false, Bool.false_eq_true, id, runGate_withModes, changePhases_withModes]
    rfl
  · simp only [if_true, id, changePhases_withModes, runGate_withModes]
    rfl

/-! ### The segment that an expiry runs (R82, R83, R114) -/

/-- The segment that an expiry's computation runs: the current one, or else the head of the queue. -/
def ranSegment (m : MotionGate) : Option CurrentSegment :=
  if m.current = none then m.queue.head?.map (fun g => { segment := g, travel := 0, elapsed := 0 }) else m.current

/-- The segments that wait after it. -/
def leftQueue (m : MotionGate) : List Segment := if m.current = none then m.queue.tail else m.queue

theorem ranSegment_eq_none_iff {m : MotionGate} : ranSegment m = none ↔ m.current = none ∧ m.queue = [] := by
  unfold ranSegment
  by_cases h : m.current = none <;> simp [h]

/-- The segment reaches its limit at the end of a period of `length` (R83). -/
def EndsBy (length : Nat) (r : CurrentSegment) : Prop :=
  (r.segment.kind = .dist ∧ 2048 * r.segment.limit ≤ r.travel) ∨ (r.segment.kind = .time ∧ r.segment.limit ≤ r.elapsed + length)

theorem complete_elapsed_iff {length : Nat} {r : CurrentSegment} :
    ({ r with elapsed := r.elapsed + length } : CurrentSegment).complete = true ↔ EndsBy length r := complete_iff

section
variable {s : State} {c : ModeCommand} {rest : List ModeCommand} {length : Nat}

/-- What an expiry's computation makes current, and what it leaves (R82, R114). -/
theorem takeAtExpiry_eq (hm : SegmentState s.rct.state) : takeAtExpiry s = { s with
    mgt := { s.mgt with
      current := ranSegment s.mgt, queue := leftQueue s.mgt
      starved := if s.mgt.current = none ∧ s.mgt.queue ≠ [] then false else s.mgt.starved }
    rct := { s.rct with pendingStep := if s.mgt.current = none ∧ s.mgt.queue ≠ [] then false else s.rct.pendingStep } } := by
  by_cases h : s.mgt.current = none ∧ s.mgt.queue ≠ []
  · obtain ⟨hc, hne⟩ := id h
    obtain ⟨g, rest, hq⟩ := List.exists_cons_of_ne_nil hne
    rw [takeAtExpiry_of_head hm hc hq, ranSegment, leftQueue, if_pos hc, if_pos hc, if_pos h, if_pos h, hq]
    rfl
  · have hran : ranSegment s.mgt = s.mgt.current ∧ leftQueue s.mgt = s.mgt.queue := by
      unfold ranSegment leftQueue
      by_cases hc : s.mgt.current = none
      · have hq : s.mgt.queue = [] := by simpa [hc] using h
        simp [hc, hq]
      · simp [hc]
    rw [takeAtExpiry_of_none s (.inr (by tauto)), hran.1, hran.2, if_neg h, if_neg h]

theorem sendGate_of_segments (hm : SegmentState s.rct.state) :
    (sendGate s).mgt.current = ranSegment s.mgt ∧ (sendGate s).mgt.queue = leftQueue s.mgt ∧
      (sendGate s).mgt.completed = s.mgt.completed ∧ (sendGate s).rct =
        { s.rct with pendingStep := if s.mgt.current = none ∧ s.mgt.queue ≠ [] then false else s.rct.pendingStep } := by
  obtain ⟨hrct, hmgt, -, -, -⟩ := handOverGate_gateCompute (takeAtExpiry s)
  rw [sendGate, hrct, hmgt, takeAtExpiry_eq hm]
  exact ⟨rfl, rfl, rfl, rfl⟩

/-! ### A Step taken in RUN or CREEP (R114) -/

/-- A Step is the oldest mode command in RUN or CREEP. -/
def Stepping (c : ModeCommand) (s : State) : Prop := c.kind = .step ∧ (s.rct.state = .run ∨ s.rct.state = .creep)

theorem Stepping.segmentState (h : Stepping c s) : SegmentState s.rct.state := h.2.elim .inl fun h => .inr (.inl h)

theorem stepWaits_iff (hq : s.rct.modeQueue = c :: rest) : stepWaits s = true ↔ Stepping c s := by
  simp [stepWaits, Stepping, hq, and_comm]

theorem takeMode_of_stepping (hq : s.rct.modeQueue = c :: rest) (h : Stepping c s) : takeMode s =
    if s.mgt.current = none ∧ s.mgt.queue = [] then stopped .hold rest s
    else { entered .step rest s with rct := { (entered .step rest s).rct with pendingStep := s.mgt.current.isNone } } := by
  have hl : legal c.kind s.rct.state (bothUp s) = true := by
    rw [h.1]
    rcases h.2 with e | e <;> rw [e] <;> rfl
  rw [takeMode_of_legal hq hl, carryOut_step h.1 hl]

/-- The state between the take of such a Step and the segment's elapsed time, in either order of the take and the gate. -/
structure StepTaken (rest : List ModeCommand) (m : MotionGate) (t : State) : Prop where
  modeQueue : t.rct.modeQueue = rest
  pendingStep : t.rct.pendingStep = false
  current : t.mgt.current = ranSegment m
  queue : t.mgt.queue = leftQueue m
  completed : t.mgt.completed = m.completed
  hold : ranSegment m = none → t.rct.state = .hold
  step : ranSegment m ≠ none → t.rct.state = .step

theorem stepTaken_of_gate_first (hq : s.rct.modeQueue = c :: rest) (h : Stepping c s) :
    StepTaken rest s.mgt (takeMode (sendGate s)) := by
  obtain ⟨hcurrent, hqueue, hcompleted, hrct⟩ := sendGate_of_segments h.segmentState
  have hstep : Stepping c (sendGate s) := ⟨h.1, by rw [hrct]; exact h.2⟩
  rw [takeMode_of_stepping (s := sendGate s) (by rw [hrct]; exact hq) hstep]
  by_cases hn : ranSegment s.mgt = none
  · have hleft : leftQueue s.mgt = [] := by
      obtain ⟨hc, hempty⟩ := ranSegment_eq_none_iff.mp hn
      simp [leftQueue, hc, hempty]
    rw [if_pos ⟨hcurrent.trans hn, hqueue.trans hleft⟩]
    exact ⟨rfl, rfl, hcurrent, hqueue, hcompleted, fun _ => rfl, fun hne => absurd hn hne⟩
  · rw [if_neg fun hboth => hn (hcurrent.symm.trans hboth.1)]
    exact ⟨rfl, by
      rw [hcurrent]
      exact Option.isNone_eq_false_iff.mpr (Option.isSome_iff_ne_none.mpr hn),
      hcurrent, hqueue, hcompleted, fun he => absurd he hn, fun _ => rfl⟩

theorem stepTaken_of_take_first (hq : s.rct.modeQueue = c :: rest) (h : Stepping c s) :
    StepTaken rest s.mgt (sendGate (takeMode s)) := by
  rw [takeMode_of_stepping hq h]
  by_cases hn : s.mgt.current = none ∧ s.mgt.queue = []
  · rw [if_pos hn]
    obtain ⟨hrct, hmgt, -, -, -⟩ := handOverGate_gateCompute (stopped .hold rest s)
    have hnone := ranSegment_eq_none_iff.mpr hn
    rw [sendGate_eq_of_take (takeAtExpiry_of_none (stopped .hold rest s) (.inr (.inr hn.2)))]
    refine ⟨by rw [hrct]; rfl, by rw [hrct]; rfl, ?_, ?_, by rw [hmgt]; rfl, fun _ => by rw [hrct]; rfl, fun hne => absurd hnone hne⟩
    · rw [hmgt, hnone]
      exact hn.1
    · rw [hmgt, leftQueue, if_pos hn.1, hn.2]
      exact hn.2
  · rw [if_neg hn]
    obtain ⟨hcurrent, hqueue, hcompleted, hrct⟩ := sendGate_of_segments (s := { entered .step rest s with
      rct := { (entered .step rest s).rct with pendingStep := s.mgt.current.isNone } }) (.inr (.inr (.inl rfl)))
    refine ⟨by rw [hrct]; rfl, ?_, hcurrent, hqueue, hcompleted, fun he => absurd (ranSegment_eq_none_iff.mp he) hn,
      fun _ => by rw [hrct]; rfl⟩
    rw [hrct]
    by_cases hc : s.mgt.current = none
    · exact if_pos ⟨hc, fun hq => hn ⟨hc, hq⟩⟩
    · exact (if_neg fun hboth => hc hboth.1).trans (Option.isNone_eq_false_iff.mpr (Option.isSome_iff_ne_none.mpr hc))

/-- The segment and the run state after an expiry with such a Step. -/
structure StepDone (rest : List ModeCommand) (length : Nat) (m : MotionGate) (u : State) : Prop where
  modeQueue : u.rct.modeQueue = rest
  pendingStep : u.rct.pendingStep = false
  queue : u.mgt.queue = leftQueue m
  none : ranSegment m = none → u.rct.state = .hold ∧ u.mgt.current = none ∧ u.mgt.completed = m.completed
  short : ∀ r, ranSegment m = some r → ¬EndsBy length r → u.rct.state = .step ∧
    u.mgt.current = some { r with elapsed := r.elapsed + length } ∧ u.mgt.completed = m.completed
  ended : ∀ r, ranSegment m = some r → EndsBy length r →
    u.rct.state = .hold ∧ u.mgt.current = .none ∧ u.mgt.completed = (m.completed + 1) % 65536

theorem StepTaken.done {m : MotionGate} {t : State} (h : StepTaken rest m t) :
    StepDone rest length m (segmentElapsed length t) := by
  cases hr : ranSegment m with
  | none =>
    rw [segmentElapsed_of_none (h.current.trans hr)]
    exact ⟨h.modeQueue, h.pendingStep, h.queue, fun _ => ⟨h.hold hr, h.current.trans hr, h.completed⟩,
      fun r hs => by simp [hr] at hs, fun r hs => by simp [hr] at hs⟩
  | some r =>
    have hstep := h.step (by simp [hr])
    rw [segmentElapsed_of_current (by rw [hstep]; exact .inr (.inr (.inl rfl))) (h.current.trans hr)]
    by_cases he : EndsBy length r
    · rw [progressSegment_of_complete (complete_elapsed_iff.mpr he), completeSegment_of_step hstep]
      refine ⟨h.modeQueue, rfl, h.queue, fun hn => by simp [hr] at hn, fun q hq hne => ?_, fun q hq _ => ⟨rfl, rfl, ?_⟩⟩
      · rw [hr] at hq
        exact absurd (Option.some.inj hq ▸ he) hne
      · exact congrArg (fun n => (n + 1) % 65536) h.completed
    · rw [progressSegment_of_incomplete (mt complete_elapsed_iff.mp he)]
      refine ⟨h.modeQueue, h.pendingStep, h.queue, fun hn => by simp [hr] at hn, fun q hq _ => ⟨hstep, ?_, h.completed⟩,
        fun q hq hq' => ?_⟩
      · rw [hr] at hq
        rw [Option.some.inj hq]
      · rw [hr] at hq
        exact absurd (Option.some.inj hq ▸ hq') he

/-- What follows the segment's elapsed time in an expiry leaves it. -/
theorem StepDone.later {m : MotionGate} {u : State} (h : StepDone rest length m u) (first : Bool) :
    StepDone rest length m (beginPeriod ((if first then id else changePhases) u)) := by
  cases first
  · simp only [if_false, Bool.false_eq_true]
    rw [changePhases_eq]
    exact { h with }
  · exact { h with }

end

/-- The take comes after the gate's part, but for a Step whose segment ends. -/
theorem gateThenTake_eq {s : State} {c : ModeCommand} {rest : List ModeCommand} {length : Nat} (hq : s.rct.modeQueue = c :: rest)
    (h : Stepping c s → ∀ r, ranSegment s.mgt = some r → ¬EndsBy length r) :
    gateThenTake length s = takeMode (runGate length s) := by
  rcases gateThenTake_cases length s with ⟨hw, e⟩ | ⟨-, e⟩
  · have hstep := (stepWaits_iff hq).mp hw
    obtain ⟨hcurrent, -, -, hrct⟩ := sendGate_of_segments hstep.segmentState
    have hsent : Stepping c (sendGate s) := ⟨hstep.1, by rw [hrct]; exact hstep.2⟩
    have hmodes : (sendGate s).rct.modeQueue = c :: rest := (sendGate_modeQueue s).trans hq
    have htaken := stepTaken_of_gate_first hq hstep
    rw [e, runGate]
    cases hr : ranSegment s.mgt with
    | none =>
      rw [segmentElapsed_of_none (hcurrent.trans hr), segmentElapsed_of_none (htaken.current.trans hr)]
    | some r =>
      have hshort := mt complete_elapsed_iff.mp (h hstep r hr)
      have hne : ¬((sendGate s).mgt.current = none ∧ (sendGate s).mgt.queue = []) := by simp [hcurrent, hr]
      rw [segmentElapsed_of_current hsent.segmentState (hcurrent.trans hr), progressSegment_of_incomplete hshort,
        segmentElapsed_of_current (by rw [htaken.step (by simp [hr])]; exact .inr (.inr (.inl rfl))) (htaken.current.trans hr),
        progressSegment_of_incomplete hshort, takeMode_of_stepping hmodes hsent, if_neg hne]
      rw [takeMode_of_stepping (s := { sendGate s with mgt := { (sendGate s).mgt with
        current := some { r with elapsed := r.elapsed + length } } }) hmodes hsent, if_neg (by simp)]
      simp only [hcurrent, hr]
      rfl
  · exact e

/-- The take after the gate is a take of what the expiry leaves without it. -/
theorem takePart_eq {s : State} {c : ModeCommand} {rest : List ModeCommand} {length : Nat} (first : Bool)
    (hq : s.rct.modeQueue = c :: rest) (h : Stepping c s → ∀ r, ranSegment s.mgt = some r → ¬EndsBy length r) :
    takePart first length s = takeMode (gatePart first length s) := by
  unfold takePart gatePart
  have hphase : gateThenTake length (changePhases s) = takeMode (runGate length (changePhases s)) := by
    refine gateThenTake_eq (c := c) (rest := rest) ?_ ?_ <;> rw [changePhases_eq]
    · exact hq
    · exact h
  cases first
  · simp only [if_false, Bool.false_eq_true, id, gateThenTake_eq hq h, takeMode_beginPeriod, takeMode_changePhases]
  · simp only [if_true, id, hphase, takeMode_beginPeriod]

/-- The state whose segment is the one that the expiry runs, with a limit that it does not reach at this expiry. -/
def longer (length : Nat) (r : CurrentSegment) (s : State) : State := { s with mgt := { s.mgt with
  current := some { r with segment := { r.segment with limit := r.travel + r.elapsed + length + 1 } }
  queue := leftQueue s.mgt, starved := if s.mgt.current = none then false else s.mgt.starved } }

/-- The segment of `v` completes in STEP, into HOLD, with no successor. -/
def stepEnded (rest : List ModeCommand) (s v : State) : State := { v with
  rct := { s.rct with state := .hold, modeQueue := rest, pendingStep := false }
  rfx := { v.rfx with phase := .none, suspects := noSuspects }
  mgt := { v.mgt with current := none, completed := (s.mgt.completed + 1) % 65536 } }

section
variable {s : State} {c : ModeCommand} {rest : List ModeCommand} {length : Nat} {r : CurrentSegment}

/-- The gate's hand-over, as a change of the window, of what is sent and of the result beside the other blocks. -/
theorem sendGate_beside {t : State} (ht : takeAtExpiry s = t) : sendGate s = { beside t (gateCompute t).2 with
    dli := (sendGate s).dli
    mgt := { t.mgt with result := (gateCompute t).1.result } } := by
  have hw : (gateCompute t).2 = beside t (gateCompute t).2 := by
    rw [(gateCompute_frame t).1]
    rfl
  rw [sendGate_eq_of_take ht]
  refine (handOverGate_eq _ _).trans ?_
  generalize (handOverGate (gateCompute t).1 (gateCompute t).2).dli = sent
  conv_lhs => rw [hw]
  rfl

/-- The gate gives the same, and leaves the same window, for the state with the longer segment. -/
theorem sendGate_longer (h : SegmentState s.rct.state) (hr : ranSegment s.mgt = some r) : ∃ (w : State) (sent : DriveLink)
    (result : GateResult) (waits : Bool),
    sendGate s = { beside s w with
      dli := sent
      mgt := { (longer length r s).mgt with current := some r, result := result }
      rct := { s.rct with pendingStep := waits } } ∧
    sendGate (withModes [] (longer length r s)) = { beside (withModes [] (longer length r s)) w with
      dli := sent
      mgt := { (longer length r s).mgt with result := result } } := by
  have hstarved : (if s.mgt.current = none ∧ s.mgt.queue ≠ [] then false else s.mgt.starved) =
      if s.mgt.current = none then false else s.mgt.starved := by
    have hne : s.mgt.current = none → s.mgt.queue ≠ [] := fun hc hq => by
      rw [ranSegment_eq_none_iff.mpr ⟨hc, hq⟩] at hr
      cases hr
    by_cases hc : s.mgt.current = none <;> simp [hc, hne]
  have htake := takeAtExpiry_eq h
  rw [hr, hstarved] at htake
  have halike : GateAlike (takeAtExpiry s) (withModes [] (longer length r s)) := by
    rw [htake]
    exact ⟨rfl, rfl, rfl, rfl, rfl, rfl, rfl⟩
  have hnone : takeAtExpiry (withModes [] (longer length r s)) = withModes [] (longer length r s) :=
    takeAtExpiry_of_none _ (.inr (.inl (Option.some_ne_none _)))
  have hframe := (gateCompute_gateFrame (takeAtExpiry s)).toExpiryFrame
  have htaken := (takeAtExpiry_gateFrame s).toExpiryFrame
  have hdli : (sendGate (withModes [] (longer length r s))).dli = (sendGate s).dli := by
    rw [sendGate_eq_of_take hnone, sendGate, halike.gateCompute]
    exact handOverGate_dli_congr (t := beside (withModes [] (longer length r s)) _) (hframe.dli.trans htaken.dli).symm rfl _
  refine ⟨(gateCompute (takeAtExpiry s)).2, (sendGate s).dli, (gateCompute (takeAtExpiry s)).1.result,
    if s.mgt.current = none ∧ s.mgt.queue ≠ [] then false else s.rct.pendingStep, ?_, ?_⟩
  · refine (sendGate_beside rfl).trans ?_
    generalize gateCompute (takeAtExpiry s) = out
    rw [htake]
    rfl
  · rw [sendGate_beside hnone, hdli, halike.gateCompute]
    rfl

theorem entered_of_stepping (h : Stepping c s) : entered .step rest s = { s with
    rct := { s.rct with state := .step, modeQueue := rest, pendingStep := false }
    rfx := { s.rfx with phase := .none } } := by
  rw [entered, armedFrom, if_pos (by rcases h.2 with e | e <;> simp [e])]

/-- A Step whose segment ends at this expiry is taken before the segment completes (R114). -/
theorem gateThenTake_of_ends (hq : s.rct.modeQueue = c :: rest) (h : Stepping c s) (hr : ranSegment s.mgt = some r)
    (he : EndsBy length r) :
    gateThenTake length s = stepEnded rest s (runGate length (withModes [] (longer length r s))) := by
  obtain ⟨hcurrent, -, -, hrct⟩ := sendGate_of_segments h.segmentState
  have hsent : Stepping c (sendGate s) := ⟨h.1, by rw [hrct]; exact h.2⟩
  have htaken := stepTaken_of_gate_first hq h
  have hstep := htaken.step (by simp [hr])
  have hlong : ¬({ r with
      segment := { r.segment with limit := r.travel + r.elapsed + length + 1 }
      elapsed := r.elapsed + length } : CurrentSegment).complete = true := by
    rw [complete_iff]
    simp only
    omega
  rw [gateThenTake, if_pos ((stepWaits_iff hq).mpr h), segmentElapsed_of_current (by rw [hstep]; exact .inr (.inr (.inl rfl)))
    (htaken.current.trans hr), progressSegment_of_complete (complete_elapsed_iff.mpr he), completeSegment_of_step hstep,
    takeMode_of_stepping ((sendGate_modeQueue s).trans hq) hsent, if_neg (by simp [hcurrent, hr]), entered_of_stepping hsent]
  obtain ⟨w, sent, result, waits, hgate, hlonger⟩ := sendGate_longer (length := length) h.segmentState hr
  have hsegment : (sendGate (withModes [] (longer length r s))).mgt.current = (longer length r s).mgt.current := by rw [hlonger]
  rw [runGate, segmentElapsed_of_current (by rw [hlonger]; exact h.segmentState) hsegment, progressSegment_of_incomplete hlong,
    hlonger, hgate]
  rfl

theorem takePart_of_ends (first : Bool) (hq : s.rct.modeQueue = c :: rest) (h : Stepping c s) (hr : ranSegment s.mgt = some r)
    (he : EndsBy length r) :
    takePart first length s = stepEnded rest s (gatePart first length (withModes [] (longer length r s))) := by
  unfold takePart gatePart
  cases first
  · simp only [if_false, Bool.false_eq_true, id, gateThenTake_of_ends hq h hr he]
    rw [changePhases_eq, changePhases_eq]
    rfl
  · have hphase : gateThenTake length (changePhases s) =
        stepEnded rest (changePhases s) (runGate length (withModes [] (longer length r (changePhases s)))) := by
      refine gateThenTake_of_ends (c := c) ?_ ?_ ?_ he <;> rw [changePhases_eq]
      · exact hq
      · exact h
      · exact hr
    have hlonger : withModes [] (longer length r (changePhases s)) = changePhases (withModes [] (longer length r s)) := by
      rw [changePhases_eq, changePhases_eq]
      rfl
    have hended (v : State) : stepEnded rest (changePhases s) v = stepEnded rest s v := by
      rw [changePhases_eq]
      rfl
    simp only [if_true, id, hphase, hlonger, hended]
    rfl

end

section
variable {s : State} {c : ModeCommand} {rest : List ModeCommand} {length : Nat}

theorem stepDone_of_takeFirst (first : Bool) (hq : s.rct.modeQueue = c :: rest) (h : Stepping c s) :
    StepDone rest length s.mgt (gatePart first length (takeMode s)) := by
  cases first
  · exact (stepTaken_of_take_first hq h).done.later false
  · have hphase : StepTaken rest s.mgt (sendGate (takeMode (changePhases s))) := by
      have htaken : StepTaken rest (changePhases s).mgt (sendGate (takeMode (changePhases s))) := by
        refine stepTaken_of_take_first (c := c) ?_ ?_ <;> rw [changePhases_eq]
        · exact hq
        · exact h
      rwa [changePhases_eq] at htaken ⊢
    rw [takeMode_changePhases] at hphase
    exact hphase.done.later true

theorem stepDone_of_gateFirst (first : Bool) (hq : s.rct.modeQueue = c :: rest) (h : Stepping c s) :
    StepDone rest length s.mgt (takePart first length s) := by
  cases first
  · have hdone := (stepTaken_of_gate_first hq h).done (length := length)
    rw [show segmentElapsed length (takeMode (sendGate s)) = gateThenTake length s from
      (if_pos ((stepWaits_iff hq).mpr h)).symm] at hdone
    exact hdone.later false
  · have hdone : StepDone rest length (changePhases s).mgt (gateThenTake length (changePhases s)) := by
      have hq' : (changePhases s).rct.modeQueue = c :: rest := by rw [changePhases_eq]; exact hq
      have h' : Stepping c (changePhases s) := by rw [changePhases_eq]; exact h
      rw [gateThenTake, if_pos ((stepWaits_iff hq').mpr h')]
      exact (stepTaken_of_gate_first hq' h').done
    rw [show (changePhases s).mgt = s.mgt by rw [changePhases_eq]] at hdone
    exact hdone.later true

end

/-- Settles O43. -/
theorem modeCommandIsTakenByLegality : Obligations.ModeCommandIsTakenByLegality := by
  refine ⟨fun c rest s hq => ?_, ?_⟩
  · intro up armed entered stopped
    have hup : up = bothUp s := by
      rw [Bool.eq_iff_iff, decide_eq_true_iff]
      exact bothUp_iff.symm
    rw [hup]
    refine ⟨fun hrefused => takeMode_of_refused hq (legalityTable_eq_nil_iff.mp hrefused), fun hlegal => ?_⟩
    have hl : legal c.kind s.rct.state (bothUp s) = true := by
      rw [← Bool.not_eq_false]
      exact mt legalityTable_eq_nil_iff.mpr hlegal
    rw [takeMode_of_legal hq hl]
    refine ⟨?_, fun hk => carryOut_stop hk, fun hk => carryOut_hold hk, fun hk => ?_, fun hk => ?_, fun hk => ?_,
      fun hk => carryOut_step hk hl, fun hk => carryOut_undock hk hl⟩
    · rw [legalityTable_eq, if_pos hl]
      exact carryOut_state hl
    · simp only [carryOut, hk]
      exact carryOut_moving hl (by simp [hk]) (.inl rfl) (by simp)
    · simp only [carryOut, hk]
      rw [takeCreep, carryOut_moving hl (by simp [hk]) (.inr (.inl rfl)) (by simp)]
      rfl
    · simp only [carryOut, hk]
      exact carryOut_moving hl (by simp [hk]) (.inr (.inr (.inr rfl))) (by simp)
  · intro c rest p s hq hp hdue queue stepping ran left ends longerOf
    obtain ⟨hperiod, hchoices, -⟩ := takeMode_keeps s
    have htakenFrame := (takeMode_frame s).1
    have hdueNone : DueAt (withModes [] s) .controlPeriodExpiry := hdue
    have hdueTaken : DueAt (withModes [] (takeMode s)) .controlPeriodExpiry := by
      obtain ⟨q, hq', hlate⟩ := hdue
      exact ⟨q, hperiod.trans hq', by rw [show (withModes [] (takeMode s)).pot = s.pot from htakenFrame.pot]; exact hlate⟩
    cases htake : Config.takeBeforeGate s.choices with
    | true =>
      have hexec := exec_expiry_of_takeFirst hp hdue (.inr htake)
      refine ⟨⟨_, .inl ⟨exec_expiry_of_no_mode (s := withModes [] (takeMode s)) (hperiod.trans hp) hdueTaken rfl, ?_⟩⟩,
        fun hstep => ?_⟩
      · have hrest : (takeMode s).rct.modeQueue = rest := by rw [(takeMode_frame s).2, hq]; rfl
        have hself : takeMode (nextChoice s) = withModes rest (nextChoice (withModes [] (takeMode s))) := by
          rw [takeMode_nextChoice, ← hrest]
          rfl
        rw [hexec, hself, gatePart_withModes, show (withModes [] (takeMode s)).choices = s.choices from hchoices]
        rfl
      · have hdone := stepDone_of_takeFirst (s := nextChoice s) (length := p.length) (Config.phaseBeforeGate s.choices) hq hstep
        exact ⟨_, hexec, hdone.modeQueue, hdone.pendingStep, hdone.queue, hdone.none,
          fun r hr => ⟨hdone.short r hr, hdone.ended r hr⟩⟩
    | false =>
      have hexec := exec_expiry_of_gateFirst hp hdue (by simp [hq]) htake
      refine ⟨?_, fun hstep => ?_⟩
      · by_cases hends : stepping ∧ ∃ r, ran = some r ∧ ends r
        · obtain ⟨hstep, r, hr, he⟩ := hends
          refine ⟨_, .inr (.inr ⟨r, hstep, hr, he,
            exec_expiry_of_no_mode (s := withModes [] (longer p.length r s)) hp hdue rfl, ?_⟩)⟩
          rw [hexec, takePart_of_ends (s := nextChoice s) _ hq hstep hr he]
          rfl
        · have hshort : stepping → ∀ r, ran = some r → ¬ends r := fun hstep r hr he => hends ⟨hstep, r, hr, he⟩
          refine ⟨_, .inr (.inl ⟨hshort, exec_expiry_of_no_mode (s := withModes [] s) hp hdueNone rfl, ?_⟩)⟩
          have hself : nextChoice s = withModes (c :: rest) (nextChoice (withModes [] s)) := by
            rw [← hq]
            rfl
          rw [hexec, takePart_eq (s := nextChoice s) _ hq hshort, hself, gatePart_withModes]
          rfl
      · have hdone := stepDone_of_gateFirst (s := nextChoice s) (length := p.length) (Config.phaseBeforeGate s.choices) hq hstep
        exact ⟨_, hexec, hdone.modeQueue, hdone.pendingStep, hdone.queue, hdone.none,
          fun r hr => ⟨hdone.short r hr, hdone.ended r hr⟩⟩

end Sys2Proof.Machine
end

section
/-! A sense frame at the Reflex Unit: the armed flags are written apart from the firings, and the inputs that fire are taken
one after another (R122 to R125, R129, R130, R133 to R139). -/

namespace Sys2Proof.Machine

/-! ## Firings beside the armed flags -/

section
variable (a : Armed) (s : State)

theorem withArmed_beside {t : State} (h : MapOnly s t) : beside (withArmed a s) t = withArmed a t := by
  rw [h]
  rfl

theorem requestMark_withArmed (h : Hazard) (age : Nat) : requestMark h age (withArmed a s) = withArmed a (requestMark h age s) :=
  (requestMark_beside (withArmed a s) s h age).trans (withArmed_beside a s (requestMark_mapOnly h age s))

theorem judgeTrust_withArmed (x : CliffSensor) :
    judgeTrust x (withArmed a s) = ((judgeTrust x s).1, withArmed a (judgeTrust x s).2) :=
  (judgeTrust_beside (withArmed a s) s x).trans
    (congrArg _ (withArmed_beside a s (judgeTrust_frame x s).1.mapOnly))

theorem laterInput_withArmed (age count : Nat) (h : Hazard) :
    laterInput age count (withArmed a s) h = withArmed a (laterInput age count s h) :=
  requestMark_withArmed a (raise (triggerEvent h) (.hazard h (some count)) s) h age

theorem enterReflex_withArmed (h : Hazard) (age : Nat) (hs : EntryState s.rct.state) :
    enterReflex h age (withArmed a s) = withArmed a (enterReflex h age s) := by
  rcases hs with hs | hs | hs
  · rw [enterReflex_of_not_approach h age (.inl hs), enterReflex_of_not_approach (s := withArmed a s) h age (.inl hs),
      ← laterInput_withArmed]
    rfl
  · rw [enterReflex_of_not_approach h age (.inr hs), enterReflex_of_not_approach (s := withArmed a s) h age (.inr hs),
      ← laterInput_withArmed]
    rfl
  · rw [enterReflex_of_approach h age hs, enterReflex_of_approach (s := withArmed a s) h age hs, ← requestMark_withArmed]
    rfl

/-- A firing neither reads nor writes the armed flags (R123). -/
theorem fire_withArmed (h : Hazard) (age : Nat) (entry : Option Nat) :
    fire h age entry (withArmed a s) = (withArmed a (fire h age entry s).1, (fire h age entry s).2) := by
  cases entry with
  | some d => rw [fire_of_entry_made, fire_of_entry_made, laterInput_withArmed]
  | none =>
    rcases fire_cases h age none s with ⟨d, e, -⟩ | ⟨-, hs, -⟩ | ⟨-, hs, -⟩ | ⟨-, hs, -⟩ | ⟨-, hs, -⟩
    · cases e
    · rw [fire_of_idle h age hs, fire_of_idle (s := withArmed a s) h age hs]
      rfl
    · have hentry : EntryState s.rct.state := hs.imp moving_iff.mp id
      rw [fire_of_entryState h age hentry, fire_of_entryState (s := withArmed a s) h age hentry, enterReflex_withArmed a s h age hentry]
      rfl
    · rw [fire_of_reflex h age hs, fire_of_reflex (s := withArmed a s) h age hs, abortReflex_eq h age hs,
        abortReflex_eq (s := withArmed a s) h age hs, ← requestMark_withArmed]
      rfl
    · rw [fire_of_no_fire h age hs, fire_of_no_fire (s := withArmed a s) h age hs]

end

/-! ## An approach bump (R139, R149) -/

section
variable {s : State} (side : Side)

/-- The state that a bump in APPROACH leaves before the DAU takes it. -/
def bumped (side : Side) (s : State) : State := raise .bump (.hazard (.bump side) none) { s with
  rfx := { s.rfx with approachBumps := min 3 (s.rfx.approachBumps + 1) }
  dli := { s.dli with
    lastSetpoints := (0, 0)
    leaving := leavingAfter (.setpoint 0 0) s.dli.leaving
    waiting := waitingAfter (.setpoint 0 0) s.dli.leaving s.dli.waiting } }

theorem failApproach_eq {t : State} (r : DockFailure) (h : t.rct.state = .approach) : failApproach r t =
    raise .dockFail (.dockFailure r) { t with
      rct := { t.rct with state := .hold, pendingStep := false }
      rfx := { t.rfx with phase := .none, suspects := noSuspects }
      dau := idleDock } := by
  rw [failApproach, changeRun_hold_of_docking (by rw [h]; rfl)]

theorem approachBump_of_third (hs : s.rct.state = .approach) (h : 2 ≤ s.rfx.approachBumps) : approachBump side false s =
    raise .dockFail (.dockFailure .bumps) { bumped side s with
      rct := { s.rct with state := .hold, pendingStep := false }
      rfx := { (bumped side s).rfx with phase := .none, suspects := noSuspects }
      dau := idleDock } := by
  have hsent : sendZero (raiseHazard (.bump side) none { s with rfx := { s.rfx with
      approachBumps := min 3 (s.rfx.approachBumps + 1) } }) = bumped side s := sendZero_eq _
  have hthree : 3 ≤ (bumped side s).rfx.approachBumps := by
    show 3 ≤ min 3 (s.rfx.approachBumps + 1)
    omega
  rw [approachBump, if_neg Bool.false_ne_true, dockBump]
  simp only [hsent]
  rw [if_pos hthree, failApproach_eq .bumps (show (bumped side s).rct.state = .approach from hs)]
  rfl

theorem approachBump_of_fewer (h : s.rfx.approachBumps < 2) : approachBump side false s = { bumped side s with
    dau := { s.dau with phase := .bumpHalt, beaconTimer := none, contactCount := 0, idWait := 0, reverse := none } } := by
  have hsent : sendZero (raiseHazard (.bump side) none { s with rfx := { s.rfx with
      approachBumps := min 3 (s.rfx.approachBumps + 1) } }) = bumped side s := sendZero_eq _
  have hfewer : ¬3 ≤ (bumped side s).rfx.approachBumps := by
    show ¬3 ≤ min 3 (s.rfx.approachBumps + 1)
    omega
  rw [approachBump, if_neg Bool.false_ne_true, dockBump]
  simp only [hsent]
  rw [if_neg hfewer]
  rfl

theorem approachBump_withArmed (a : Armed) (contact : Bool) (hs : s.rct.state = .approach) :
    approachBump side contact (withArmed a s) = withArmed a (approachBump side contact s) := by
  cases contact with
  | true => rfl
  | false =>
    rcases Nat.lt_or_ge s.rfx.approachBumps 2 with h | h
    · rw [approachBump_of_fewer side h, approachBump_of_fewer (s := withArmed a s) side h]
      rfl
    · rw [approachBump_of_third side hs h, approachBump_of_third (s := withArmed a s) side hs h]
      rfl

end

/-! ## One input that fires (R125, R129, R130, R133, R139) -/

/-- An input of a sense frame that fires, on what the ones before have left and with the frame's entry so far. -/
def senseFire (f : SenseFrame) (r : State × Option Nat) : Hazard → State × Option Nat
  | .bump side =>
    if r.1.rct.state = .approach ∧ r.2 = none then (approachBump side f.contact r.1, none)
    else fire (.bump side) f.age r.2 r.1
  | .cliff x =>
    if r.2 = none ∧ judgesTrust r.1.rct.state = true then
      if (judgeTrust x r.1).1 = true then (suspicionOpened r.1 x, none) else fire (.cliff x) f.age none (judgeTrust x r.1).2
    else fire (.cliff x) f.age r.2 r.1
  | h => fire h f.age r.2 r.1

/-- The armed flags of the state of a pair replaced. -/
def armedPair (a : Armed) (r : State × Option Nat) : State × Option Nat := (withArmed a r.1, r.2)

theorem suspicionOpened_withArmed (a : Armed) (s : State) (x : CliffSensor) :
    suspicionOpened (withArmed a s) x = withArmed a (suspicionOpened s x) := by
  rw [suspicionOpened, judgeTrust_withArmed]
  rfl

section
variable {f : SenseFrame} {r : State × Option Nat}

theorem senseFire_approachBump (side : Side) (h : r.1.rct.state = .approach ∧ r.2 = none) :
    senseFire f r (.bump side) = (approachBump side f.contact r.1, none) := if_pos h

theorem senseFire_bump (side : Side) (h : ¬(r.1.rct.state = .approach ∧ r.2 = none)) :
    senseFire f r (.bump side) = fire (.bump side) f.age r.2 r.1 := if_neg h

theorem senseFire_confirm {x : CliffSensor} (h : r.2 = none ∧ judgesTrust r.1.rct.state = true)
    (ht : (judgeTrust x r.1).1 = true) : senseFire f r (.cliff x) = (suspicionOpened r.1 x, none) :=
  (if_pos h).trans (if_pos ht)

theorem senseFire_immediate {x : CliffSensor} (h : r.2 = none ∧ judgesTrust r.1.rct.state = true)
    (ht : (judgeTrust x r.1).1 = false) :
    senseFire f r (.cliff x) = fire (.cliff x) f.age none (judgeTrust x r.1).2 :=
  (if_pos h).trans (if_neg (by simp [ht]))

theorem senseFire_cliff {x : CliffSensor} (h : ¬(r.2 = none ∧ judgesTrust r.1.rct.state = true)) :
    senseFire f r (.cliff x) = fire (.cliff x) f.age r.2 r.1 := if_neg h

end

theorem senseFire_armedPair (f : SenseFrame) (a : Armed) (r : State × Option Nat) (h : Hazard) :
    senseFire f (armedPair a r) h = armedPair a (senseFire f r h) := by
  cases h with
  | bump side =>
    by_cases hc : r.1.rct.state = .approach ∧ r.2 = none
    · rw [senseFire_approachBump side hc, senseFire_approachBump (r := armedPair a r) side hc]
      exact congrArg (·, none) (approachBump_withArmed side a _ hc.1)
    · rw [senseFire_bump side hc, senseFire_bump (r := armedPair a r) side hc]
      exact fire_withArmed a r.1 _ _ _
  | cliff x =>
    by_cases hc : r.2 = none ∧ judgesTrust r.1.rct.state = true
    · have htrust : judgeTrust x (armedPair a r).1 = _ := judgeTrust_withArmed a r.1 x
      cases ht : (judgeTrust x r.1).1 with
      | true =>
        rw [senseFire_confirm hc ht, senseFire_confirm (r := armedPair a r) hc (by rw [htrust]; exact ht)]
        exact congrArg (·, none) (suspicionOpened_withArmed a r.1 x)
      | false =>
        rw [senseFire_immediate hc ht, senseFire_immediate (r := armedPair a r) hc (by rw [htrust]; exact ht), htrust]
        exact fire_withArmed a _ _ _ _
    · rw [senseFire_cliff hc, senseFire_cliff (r := armedPair a r) hc]
      exact fire_withArmed a r.1 _ _ _
  | drop x => exact fire_withArmed a r.1 _ _ _
  | stall x => exact fire_withArmed a r.1 _ _ _
  | jam => exact fire_withArmed a r.1 _ _ _

theorem senseFires_armedPair (f : SenseFrame) (a : Armed) (hs : List Hazard) (r : State × Option Nat) :
    hs.foldl (senseFire f) (armedPair a r) = armedPair a (hs.foldl (senseFire f) r) := by
  induction hs generalizing r with
  | nil => rfl
  | cons h rest ih => rw [List.foldl_cons, List.foldl_cons, senseFire_armedPair, ih]

/-- No firing changes the armed flags. -/
theorem senseFires_armed (f : SenseFrame) (hs : List Hazard) (r : State × Option Nat) :
    (hs.foldl (senseFire f) r).1.rfx.armed = r.1.rfx.armed := by
  have h : hs.foldl (senseFire f) r = armedPair r.1.rfx.armed (hs.foldl (senseFire f) r) :=
    senseFires_armedPair f r.1.rfx.armed hs r
  rw [h]
  rfl

/-! ## What no firing changes: the tables and the pose -/

theorem approachBump_keeps (side : Side) (contact : Bool) {s : State} (hs : s.rct.state = .approach) :
    (approachBump side contact s).tbs = s.tbs ∧ (approachBump side contact s).pot = s.pot := by
  cases contact with
  | true => exact ⟨rfl, rfl⟩
  | false =>
    rcases Nat.lt_or_ge s.rfx.approachBumps 2 with h | h
    · rw [approachBump_of_fewer side h]
      exact ⟨rfl, rfl⟩
    · rw [approachBump_of_third side hs h]
      exact ⟨rfl, rfl⟩

theorem senseFire_keeps (f : SenseFrame) (r : State × Option Nat) (h : Hazard) :
    (senseFire f r h).1.tbs = r.1.tbs ∧ (senseFire f r h).1.pot = r.1.pot := by
  have hfire (z : Hazard) (e : Option Nat) (t : State) : (fire z f.age e t).1.tbs = t.tbs ∧ (fire z f.age e t).1.pot = t.pot :=
    ⟨(fire_replyFrame z f.age e t).tbs, (fire_replyFrame z f.age e t).pot⟩
  cases h with
  | bump side =>
    by_cases hc : r.1.rct.state = .approach ∧ r.2 = none
    · rw [senseFire_approachBump side hc]
      exact approachBump_keeps side _ hc.1
    · rw [senseFire_bump side hc]
      exact hfire _ _ _
  | cliff x =>
    have hw := (judgeTrust_frame x r.1).1
    by_cases hc : r.2 = none ∧ judgesTrust r.1.rct.state = true
    · cases ht : (judgeTrust x r.1).1 with
      | true =>
        rw [senseFire_confirm hc ht]
        exact ⟨hw.tbs, hw.pot⟩
      | false =>
        rw [senseFire_immediate hc ht]
        exact ⟨(hfire _ _ _).1.trans hw.tbs, (hfire _ _ _).2.trans hw.pot⟩
    · rw [senseFire_cliff hc]
      exact hfire _ _ _
  | drop x => exact hfire _ _ _
  | stall x => exact hfire _ _ _
  | jam => exact hfire _ _ _

theorem senseFires_keeps (f : SenseFrame) (hs : List Hazard) (r : State × Option Nat) :
    (hs.foldl (senseFire f) r).1.tbs = r.1.tbs ∧ (hs.foldl (senseFire f) r).1.pot = r.1.pot := by
  induction hs generalizing r with
  | nil => exact ⟨rfl, rfl⟩
  | cons h rest ih =>
    obtain ⟨htbs, hpot⟩ := ih (senseFire f r h)
    exact ⟨htbs.trans (senseFire_keeps f r h).1, hpot.trans (senseFire_keeps f r h).2⟩

/-! ## The stages of a frame (R125) -/

/-- The single wheel drop that fires (R130). -/
def drops (f : SenseFrame) (a : Armed) : List Hazard :=
  if f.dropLeft && a.dropLeft then [.drop .left] else if f.dropRight && a.dropRight then [.drop .right] else []

/-- The bumpers that fire (R129). -/
def bumps (f : SenseFrame) (a : Armed) : List Hazard :=
  let left := f.bumperLeft && a.bumperLeft
  let right := f.bumperRight && a.bumperRight
  if left && right then [.bump .both] else if left then [.bump .left] else if right then [.bump .right] else []

/-- A cliff sensor fires (R122, R123). -/
def lowAndArmed (f : SenseFrame) (s : State) (x : CliffSensor) : Bool :=
  decide (reflectance f x < s.tbs.cal.cliffThreshold) && s.rfx.armed.cliff.get x

theorem firing_eq (s : State) (f : SenseFrame) : firing s f =
    drops f s.rfx.armed ++ bumps f s.rfx.armed ++ ([CliffSensor.fl, .fr, .sl, .sr].filter (lowAndArmed f s)).map Hazard.cliff := rfl

theorem dropInput_eq (f : SenseFrame) (s : State) : dropInput f s = armedPair
    { s.rfx.armed with dropLeft := !f.dropLeft, dropRight := !f.dropRight } ((drops f s.rfx.armed).foldl (senseFire f) (s, none)) := by
  unfold dropInput drops
  simp only
  split
  · exact fire_withArmed _ s _ _ _
  split
  · exact fire_withArmed _ s _ _ _
  · rfl

theorem bumperInput_eq (f : SenseFrame) (entry : Option Nat) (s : State) : bumperInput f entry s = armedPair
    { s.rfx.armed with bumperLeft := !f.bumperLeft, bumperRight := !f.bumperRight }
    ((bumps f s.rfx.armed).foldl (senseFire f) (s, entry)) := by
  have hone (side : Side) (a : Armed) :
      (if (withArmed a s).rct.state = .approach && entry.isNone then (approachBump side f.contact (withArmed a s), none)
        else fire (.bump side) f.age entry (withArmed a s)) = armedPair a (senseFire f (s, entry) (.bump side)) := by
    rw [← senseFire_armedPair]
    by_cases hc : s.rct.state = .approach ∧ entry = none
    · rw [senseFire_approachBump (r := armedPair a (s, entry)) side hc]
      exact if_pos (by simp [withArmed, hc])
    · rw [senseFire_bump (r := armedPair a (s, entry)) side hc]
      refine if_neg ?_
      rw [Bool.and_eq_true, decide_eq_true_iff, Option.isNone_iff_eq_none]
      exact hc
  unfold bumperInput bumps sideOf
  simp only
  cases f.bumperLeft && s.rfx.armed.bumperLeft <;> cases f.bumperRight && s.rfx.armed.bumperRight
  · rfl
  · exact hone _ _
  · exact hone _ _
  · exact hone _ _

/-- The suspect record that a judgement of CONFIRM opens (R134). -/
theorem withSuspect_judgeTrust (x : CliffSensor) (s : State) :
    withSuspect x (some { travel := 0, start := (judgeTrust x s).2.pot.timeCount }) (judgeTrust x s).2 = suspicionOpened s x := by
  have hw := (judgeTrust_frame x s).1
  rw [withSuspect, suspicionOpened, hw.rfx, show (judgeTrust x s).2.pot.timeCount = s.pot.timeCount by rw [hw.pot]]

theorem cliffInput_eq (f : SenseFrame) (x : CliffSensor) (entry : Option Nat) (s : State) : cliffInput f x entry s = armedPair
    { s.rfx.armed with cliff := s.rfx.armed.cliff.set x (decide (s.tbs.cal.cliffThreshold ≤ reflectance f x)) }
    ((([x].filter (lowAndArmed f s)).map Hazard.cliff).foldl (senseFire f) (s, entry)) := by
  by_cases hlow : reflectance f x < s.tbs.cal.cliffThreshold
  · have hreading : lowReading s f x = true := decide_eq_true hlow
    rw [decide_eq_false (Nat.not_le.mpr hlow)]
    cases harmed : s.rfx.armed.cliff.get x with
    | false =>
      have hfires : lowAndArmed f s x = false := by simp [lowAndArmed, harmed]
      have hset : s.rfx.armed.cliff.set x false = s.rfx.armed.cliff := by
        cases x <;> simp only [PerSensor.get] at harmed <;> simp only [PerSensor.set, ← harmed]
      rw [List.filter_cons_of_neg (by simp [hfires]), hset]
      simp [cliffInput, hreading, harmed, armedPair, withArmed]
    | true =>
      have hfires : lowAndArmed f s x = true := by simp [lowAndArmed, harmed, hlow]
      rw [List.filter_cons_of_pos hfires, show (List.filter (lowAndArmed f s) [] : List CliffSensor) = [] from rfl]
      refine Eq.trans ?_ (senseFire_armedPair f { s.rfx.armed with cliff := s.rfx.armed.cliff.set x false } (s, entry) (.cliff x))
      have hinput : cliffInput f x entry s =
          if entry.isNone && judgesTrust s.rct.state then
            if (judgeTrust x (withCliffArmed x false s)).1 then
              (withSuspect x (some { travel := 0, start := (judgeTrust x (withCliffArmed x false s)).2.pot.timeCount })
                (judgeTrust x (withCliffArmed x false s)).2, none)
            else fire (.cliff x) f.age none (judgeTrust x (withCliffArmed x false s)).2
          else fire (.cliff x) f.age entry (withCliffArmed x false s) := by
        simp only [cliffInput, hreading, harmed, Bool.not_true, Bool.false_eq_true, if_false]
        rfl
      rw [hinput]
      by_cases hc : entry = none ∧ judgesTrust s.rct.state = true
      · rw [if_pos (by simp [hc])]
        cases ht : (judgeTrust x (withCliffArmed x false s)).1 with
        | true =>
          rw [if_pos rfl, withSuspect_judgeTrust]
          exact (senseFire_confirm (r := (withCliffArmed x false s, entry)) hc ht).symm
        | false => exact (if_neg Bool.false_ne_true).trans (senseFire_immediate (r := (withCliffArmed x false s, entry)) hc ht).symm
      · rw [if_neg (by simpa using hc)]
        exact (senseFire_cliff (r := (withCliffArmed x false s, entry)) hc).symm
  · have hreading : lowReading s f x = false := decide_eq_false hlow
    have hfires : lowAndArmed f s x = false := by simp [lowAndArmed, hlow]
    rw [List.filter_cons_of_neg (by simp [hfires]), decide_eq_true (Nat.not_lt.mp hlow)]
    simp [cliffInput, hreading, armedPair, withCliffArmed]

/-- A sensor's reading is clear at a threshold (R122). -/
def clearAt (n : Nat) (f : SenseFrame) (x : CliffSensor) : Bool := decide (n ≤ reflectance f x)

theorem lowAndArmed_of_ne (f : SenseFrame) {x y : CliffSensor} (hne : x ≠ y) (b : Bool) (a : Armed) {q r : State × Option Nat}
    (h : q.1.tbs = r.1.tbs) :
    lowAndArmed f (armedPair { a with cliff := a.cliff.set x b } q).1 y = lowAndArmed f (armedPair a r).1 y := by
  show (decide (reflectance f y < q.1.tbs.cal.cliffThreshold) && (a.cliff.set x b).get y) = _
  rw [h, PerSensor.get_set, if_neg hne]
  rfl

/-- The cliff sensors of a frame, one after another (R125). -/
theorem cliffInputs_eq (f : SenseFrame) (xs : List CliffSensor) (hx : xs.Nodup) (a : Armed) (r : State × Option Nat) :
    xs.foldl (fun r x => cliffInput f x r.2 r.1) (armedPair a r) = armedPair
      { a with cliff := xs.foldl (fun p x => p.set x (clearAt r.1.tbs.cal.cliffThreshold f x)) a.cliff }
      (((xs.filter (lowAndArmed f (armedPair a r).1)).map Hazard.cliff).foldl (senseFire f) r) := by
  induction xs generalizing a r with
  | nil => rfl
  | cons x rest ih =>
    obtain ⟨hnot, hrest⟩ := List.nodup_cons.mp hx
    have hone : cliffInput f x (armedPair a r).2 (armedPair a r).1 =
        armedPair { a with cliff := a.cliff.set x (clearAt r.1.tbs.cal.cliffThreshold f x) }
          ((([x].filter (lowAndArmed f (armedPair a r).1)).map Hazard.cliff).foldl (senseFire f) r) := by
      refine (cliffInput_eq f x r.2 (withArmed a r.1)).trans ?_
      refine (congrArg (armedPair _) (senseFires_armedPair f a _ r)).trans ?_
      rfl
    have hkeeps := senseFires_keeps f (([x].filter (lowAndArmed f (armedPair a r).1)).map Hazard.cliff) r
    have hsame : ∀ y ∈ rest, lowAndArmed f (armedPair { a with cliff := a.cliff.set x (clearAt r.1.tbs.cal.cliffThreshold f x) }
        ((([x].filter (lowAndArmed f (armedPair a r).1)).map Hazard.cliff).foldl (senseFire f) r)).1 y =
          lowAndArmed f (armedPair a r).1 y :=
      fun y hy => lowAndArmed_of_ne f (by rintro rfl; exact hnot hy) _ a hkeeps.1
    rw [List.foldl_cons, hone, ih hrest, List.filter_congr hsame, hkeeps.1, List.foldl_cons, ← List.foldl_append, ← List.map_append,
      ← List.filter_append]
    rfl

/-! ## The suspicions of a frame (R135) -/

theorem PerSensor.set_get {α : Type} (p : PerSensor α) (x : CliffSensor) : p.set x (p.get x) = p := by
  cases x <;> rfl

/-- A firing leaves the armed flags. -/
theorem fire_armed (h : Hazard) (age : Nat) (entry : Option Nat) (s : State) :
    (fire h age entry s).1.rfx.armed = s.rfx.armed := by
  have hfire : fire h age entry s = armedPair s.rfx.armed (fire h age entry s) := fire_withArmed s.rfx.armed s h age entry
  rw [hfire]
  rfl

/-- One suspicion judged at a frame, its sensor's armed flag apart. -/
def judgeOpen (f : SenseFrame) (r : State × Option Nat) (x : CliffSensor) : State × Option Nat :=
  match r.1.rfx.suspects.get x with
  | none => r
  | some m =>
    if clearAt r.1.tbs.cal.cliffThreshold f x = true then (raise .cliffDiscounted (.sensor x) (withSuspect x none r.1), r.2)
    else if suspicionRipe r.1 m then fire (.cliff x) f.age r.2 (withSuspect x none r.1) else r

/-- On the flags that the frame has written, a suspicion's judgement writes none. -/
theorem judgeSuspect_eq (f : SenseFrame) (r : State × Option Nat) (x : CliffSensor)
    (h : r.1.rfx.armed.cliff.get x = clearAt r.1.tbs.cal.cliffThreshold f x) : judgeSuspect f x r.2 r.1 = judgeOpen f r x := by
  have hreading : lowReading r.1 f x = !clearAt r.1.tbs.cal.cliffThreshold f x := by
    simp only [lowReading, clearAt, ← decide_not, Nat.not_le]
  unfold judgeSuspect judgeOpen
  cases r.1.rfx.suspects.get x with
  | none => rfl
  | some m =>
    cases hc : clearAt r.1.tbs.cal.cliffThreshold f x with
    | true =>
      have harmed : withCliffArmed x true (withSuspect x none r.1) = withSuspect x none r.1 := by
        rw [withCliffArmed, show (withSuspect x none r.1).rfx.armed = r.1.rfx.armed from rfl, ← hc, ← h, PerSensor.set_get]
        rfl
      simp [hreading, hc, harmed]
    | false => simp [hreading, hc]

theorem judgeOpen_keeps (f : SenseFrame) (r : State × Option Nat) (x : CliffSensor) :
    (judgeOpen f r x).1.tbs = r.1.tbs ∧ (judgeOpen f r x).1.rfx.armed = r.1.rfx.armed := by
  unfold judgeOpen
  split
  · exact ⟨rfl, rfl⟩
  split
  · exact ⟨rfl, rfl⟩
  split
  · exact ⟨(fire_replyFrame _ _ _ _).tbs, fire_armed _ _ _ _⟩
  · exact ⟨rfl, rfl⟩

theorem judgeSuspects_eq (f : SenseFrame) (xs : List CliffSensor) (r : State × Option Nat)
    (h : ∀ x, r.1.rfx.armed.cliff.get x = clearAt r.1.tbs.cal.cliffThreshold f x) :
    xs.foldl (fun r x => judgeSuspect f x r.2 r.1) r = xs.foldl (judgeOpen f) r := by
  induction xs generalizing r with
  | nil => rfl
  | cons x rest ih =>
    obtain ⟨htbs, harmed⟩ := judgeOpen_keeps f r x
    rw [List.foldl_cons, List.foldl_cons, judgeSuspect_eq f r x (h x), ih]
    intro y
    rw [htbs, harmed]
    exact h y

/-- The state that a sense frame finds at the Reflex Unit (R21, R163). -/
def arrived (f : SenseFrame) (s : State) : State := turnHeading f.yaw (senseUp f.contact s)

/-- The firings of a frame are those of the inputs that fire, in their order, and then the suspicions', all on the state whose
flags the frame has written. -/
theorem fireSense_eq (f : SenseFrame) (s : State) : fireSense f (arrived f s) =
    ([CliffSensor.fl, .fr, .sl, .sr].foldl (judgeOpen f) ((firing s f).foldl (senseFire f) (sensed f s, none))).1 := by
  let dropped : Armed := { s.rfx.armed with dropLeft := !f.dropLeft, dropRight := !f.dropRight }
  let bumpered : Armed := { dropped with bumperLeft := !f.bumperLeft, bumperRight := !f.bumperRight }
  let first := (drops f s.rfx.armed).foldl (senseFire f) (arrived f s, none)
  let second := (bumps f s.rfx.armed).foldl (senseFire f) first
  have hdrop : dropInput f (arrived f s) = armedPair dropped first := dropInput_eq f (arrived f s)
  have hbump : bumperInput f (armedPair dropped first).2 (armedPair dropped first).1 = armedPair bumpered second := by
    refine (bumperInput_eq f first.2 (withArmed dropped first.1)).trans ?_
    exact (congrArg (armedPair bumpered) (senseFires_armedPair f dropped (bumps f s.rfx.armed) first)).trans rfl
  have htbs : second.1.tbs = s.tbs := (senseFires_keeps f _ first).1.trans (senseFires_keeps f _ (arrived f s, none)).1
  have hlow : lowAndArmed f (armedPair bumpered second).1 = lowAndArmed f s := by
    funext x
    show (decide (reflectance f x < second.1.tbs.cal.cliffThreshold) && _) = _
    rw [htbs]
    rfl
  have hcliffs := cliffInputs_eq f [.fl, .fr, .sl, .sr] (by decide) bumpered second
  rw [hlow, htbs, ← List.foldl_append, ← List.foldl_append, ← List.append_assoc, ← firing_eq] at hcliffs
  have harmed (x : CliffSensor) : ((firing s f).foldl (senseFire f) (sensed f s, none)).1.rfx.armed.cliff.get x =
      clearAt ((firing s f).foldl (senseFire f) (sensed f s, none)).1.tbs.cal.cliffThreshold f x := by
    rw [senseFires_armed, (senseFires_keeps f _ _).1]
    cases x <;> rfl
  rw [show [CliffSensor.fl, .fr, .sl, .sr] = cliffSensors from rfl, ← judgeSuspects_eq f _ _ harmed]
  show (cliffSensors.foldl (fun r x => judgeSuspect f x r.2 r.1) (cliffSensors.foldl (fun r x => cliffInput f x r.2 r.1)
    (bumperInput f (dropInput f (arrived f s)).2 (dropInput f (arrived f s)).1))).1 = _
  have hsensed : withArmed { bumpered with
      cliff := [CliffSensor.fl, .fr, .sl, .sr].foldl (fun p x => p.set x (clearAt s.tbs.cal.cliffThreshold f x)) bumpered.cliff }
      (arrived f s) = sensed f s := rfl
  have hfires : cliffSensors.foldl (fun r x => cliffInput f x r.2 r.1) (armedPair bumpered second) =
      (firing s f).foldl (senseFire f) (sensed f s, none) := by
    rw [← hsensed]
    exact hcliffs.trans (senseFires_armedPair f _ (firing s f) (arrived f s, none)).symm
  rw [hdrop, hbump, hfires]

end Sys2Proof.Machine
end

section
/-! What a sense frame does by run state: the inputs that fire, the suspicions, and LIFTED (R30, R118, R122 to R126, R129,
R130, R133 to R139). -/

namespace Sys2Proof.Machine

/-! ## The frame as a whole -/

/-- What follows the firings of a frame: the suspicions are judged, and the DAU takes the frame. -/
def frameEnd (f : SenseFrame) (r : State × Option Nat) : State :=
  dockFrame f ([CliffSensor.fl, .fr, .sl, .sr].foldl (judgeOpen f) r).1

section
variable {f : SenseFrame} {s : State}

theorem exec_senseFrame (hwf : f.wellFormed = true) (hs : s.rct.state ≠ .loading) :
    exec (.senseFrame f) s = .next (arbitrate (dockFrame f (senseHazards f (arrived f s)))) :=
  congrArg Host.Outcome.next (takeLine_of_taken hs (show (Instr.senseFrame f).wellFormed = true from hwf) _)

/-- A frame in a state in which inputs fire, on which the wheels are not both dropped. -/
theorem exec_senseFrame_of_fires (hwf : f.wellFormed = true) (hmay : mayFire s = true)
    (hdrop : (f.dropLeft && f.dropRight) = false) : exec (.senseFrame f) s =
      .next (arbitrate (frameEnd f ((firing s f).foldl (senseFire f) (sensed f s, none)))) := by
  have hstate : s.rct.state ≠ .loading ∧ s.rct.state ≠ .lifted := by
    constructor <;> intro h <;> simp [mayFire, h] at hmay
  have hhazards : senseHazards f (arrived f s) = fireSense f (arrived f s) := by
    rw [senseHazards, hdrop, if_neg Bool.false_ne_true, if_neg (show ¬(arrived f s).rct.state = .lifted from hstate.2)]
    exact if_pos hmay
  rw [exec_senseFrame hwf hstate.1, hhazards, fireSense_eq]
  rfl

theorem dockFrame_of_other {t : State} (hh : t.rct.state ≠ .homing) (ha : t.rct.state ≠ .approach) (hd : t.rct.state ≠ .docked) :
    dockFrame f t = t := by
  unfold dockFrame
  split
  · exact absurd ‹_› hh
  · exact absurd ‹_› ha
  · exact absurd ‹_› hd
  · rfl

/-! ## Suspicions that stay (R135) -/

theorem suspicionRipe_iff {m : Measure} : suspicionRipe s m = true ↔ Ripe s m := by
  rw [suspicionRipe, Bool.or_eq_true, decide_eq_true_iff, decide_eq_true_iff]
  rfl

theorem judgeOpen_of_kept {r : State × Option Nat} (h : KeptSuspicions r.1 f) (x : CliffSensor) : judgeOpen f r x = r := by
  unfold judgeOpen
  cases hm : r.1.rfx.suspects.get x with
  | none => rfl
  | some m =>
    obtain ⟨hlow, hripe⟩ := h x m hm
    simp [clearAt, Nat.not_le.mpr hlow, mt suspicionRipe_iff.mp hripe]

theorem judgeOpens_of_kept {r : State × Option Nat} (h : KeptSuspicions r.1 f) (xs : List CliffSensor) :
    xs.foldl (judgeOpen f) r = r := by
  induction xs with
  | nil => rfl
  | cons x rest ih => rw [List.foldl_cons, judgeOpen_of_kept h, ih]

theorem keptSuspicions_of_none {t : State} (h : t.rfx.suspects = noSuspects) : KeptSuspicions t f := by
  intro x m hm
  rw [h] at hm
  cases x <;> cases hm

theorem frameEnd_of_kept {r : State × Option Nat} (h : KeptSuspicions r.1 f) : frameEnd f r = dockFrame f r.1 := by
  rw [frameEnd, judgeOpens_of_kept h]

theorem KeptSuspicions.congr {t : State} (h : KeptSuspicions s f) (hrfx : t.rfx.suspects = s.rfx.suspects) (htbs : t.tbs = s.tbs)
    (hnow : t.pot.timeCount = s.pot.timeCount) : KeptSuspicions t f := by
  intro x m hm
  rw [hrfx] at hm
  unfold Ripe
  rw [htbs, hnow]
  exact h x m hm

theorem keptSuspicions_sensed (h : KeptSuspicions s f) : KeptSuspicions (sensed f s) f := h.congr rfl rfl rfl

/-! ## Inputs that fire alone (R124) -/

theorem eventsAlone_mapOnly (hs : List Hazard) (t : State) : MapOnly t (hs.foldl eventAlone t) := by
  induction hs generalizing t with
  | nil => exact .refl t
  | cons h rest ih => exact (show MapOnly t (eventAlone t h) from rfl).trans (ih _)

theorem senseFire_of_idle {r : State × Option Nat} (hr : r.2 = none)
    (hs : r.1.rct.state = .idle ∨ r.1.rct.state = .hold ∨ r.1.rct.state = .docked) (h : Hazard) :
    senseFire f r h = (eventAlone r.1 h, none) := by
  have happroach : r.1.rct.state ≠ .approach ∧ judgesTrust r.1.rct.state = false := by
    rcases hs with e | e | e <;> rw [e] <;> exact ⟨by simp, rfl⟩
  have hfire (z : Hazard) : fire z f.age r.2 r.1 = (eventAlone r.1 z, none) := by
    rw [hr]
    exact fire_of_idle z f.age hs
  cases h with
  | bump side => rw [senseFire_bump side fun hc => happroach.1 hc.1, hfire]
  | cliff x => rw [senseFire_cliff (by simp [happroach.2]), hfire]
  | drop x => exact hfire _
  | stall x => exact hfire _
  | jam => exact hfire _

theorem senseFires_of_idle (hs : List Hazard) {t : State}
    (ht : t.rct.state = .idle ∨ t.rct.state = .hold ∨ t.rct.state = .docked) :
    hs.foldl (senseFire f) (t, none) = (hs.foldl eventAlone t, none) := by
  induction hs generalizing t with
  | nil => rfl
  | cons h rest ih =>
    rw [List.foldl_cons, senseFire_of_idle (r := (t, none)) rfl ht, ih]
    · rfl
    · exact ht

/-! ## Later inputs of an entry (R125) -/

theorem laterInputs_mapOnly (age d : Nat) (hs : List Hazard) (t : State) : MapOnly t (hs.foldl (laterInput age d) t) := by
  induction hs generalizing t with
  | nil => exact .refl t
  | cons h rest ih =>
    refine MapOnly.trans ?_ (ih _)
    exact (show MapOnly t (raise _ _ t) from rfl).trans (requestMark_mapOnly h age _)

theorem senseFire_of_entry (d : Nat) (t : State) (h : Hazard) :
    senseFire f (t, some d) h = (laterInput f.age d t h, some d) := by
  cases h with
  | bump side => rw [senseFire_bump side (by simp)]; exact fire_of_entry_made _ _ _ _
  | cliff x => rw [senseFire_cliff (by simp)]; exact fire_of_entry_made _ _ _ _
  | drop x => exact fire_of_entry_made _ _ _ _
  | stall x => exact fire_of_entry_made _ _ _ _
  | jam => exact fire_of_entry_made _ _ _ _

theorem senseFires_of_entry (d : Nat) (hs : List Hazard) (t : State) :
    hs.foldl (senseFire f) (t, some d) = (hs.foldl (laterInput f.age d) t, some d) := by
  induction hs generalizing t with
  | nil => rfl
  | cons h rest ih => rw [List.foldl_cons, senseFire_of_entry, ih, List.foldl_cons]

/-- A reflex entry leaves REFLEX with no suspicion (R126, R136). -/
theorem fire_entered (h : Hazard) (age : Nat) {t : State} (hs : EntryState t.rct.state) :
    (fire h age none t).2 = some (segmentCount t) ∧ (fire h age none t).1.rct.state = .reflex ∧
      (fire h age none t).1.rfx.suspects = noSuspects := by
  rw [fire_of_entryState h age hs]
  refine ⟨rfl, ?_⟩
  rcases hs with hs | hs | hs
  · rw [enterReflex_of_not_approach h age (.inl hs), laterInput, (requestMark_mapOnly h age _).rct, (requestMark_mapOnly h age _).rfx]
    exact ⟨rfl, rfl⟩
  · rw [enterReflex_of_not_approach h age (.inr hs), laterInput, (requestMark_mapOnly h age _).rct, (requestMark_mapOnly h age _).rfx]
    exact ⟨rfl, rfl⟩
  · rw [enterReflex_of_approach h age hs, (requestMark_mapOnly h age _).rct, (requestMark_mapOnly h age _).rfx]
    exact ⟨rfl, rfl⟩

/-- A frame whose cause makes a reflex entry: the later inputs, and nothing more (R125, R136). -/
theorem frameEnd_of_entered (h : Hazard) (rest : List Hazard) {t : State} (hs : EntryState t.rct.state) :
    frameEnd f (rest.foldl (senseFire f) (fire h f.age none t)) =
      rest.foldl (laterInput f.age (segmentCount t)) (fire h f.age none t).1 := by
  obtain ⟨hentry, hstate, hsuspects⟩ := fire_entered h f.age hs
  have hfire : fire h f.age none t = ((fire h f.age none t).1, some (segmentCount t)) := Prod.ext rfl hentry
  have hmap := laterInputs_mapOnly f.age (segmentCount t) rest (fire h f.age none t).1
  rw [hfire, senseFires_of_entry, frameEnd_of_kept (keptSuspicions_of_none (by rw [hmap.rfx]; exact hsuspects))]
  refine dockFrame_of_other ?_ ?_ ?_ <;> rw [hmap.rct, hstate] <;> simp

/-- A frame whose first input is a second cause (R137). -/
theorem frameEnd_of_aborted (h : Hazard) (rest : List Hazard) {t : State} (hs : t.rct.state = .reflex) :
    frameEnd f (rest.foldl (senseFire f) (fire h f.age none t)) = rest.foldl eventAlone (fire h f.age none t).1 := by
  have hstate : (abortReflex h f.age t).rct.state = .hold ∧ (abortReflex h f.age t).rfx.suspects = noSuspects := by
    rw [abortReflex_eq h f.age hs, (requestMark_mapOnly h f.age _).rct, (requestMark_mapOnly h f.age _).rfx]
    exact ⟨rfl, rfl⟩
  have hmap := eventsAlone_mapOnly rest (abortReflex h f.age t)
  rw [fire_of_reflex h f.age hs, senseFires_of_idle rest (.inr (.inl hstate.1)),
    frameEnd_of_kept (keptSuspicions_of_none (by rw [hmap.rfx]; exact hstate.2))]
  refine dockFrame_of_other ?_ ?_ ?_ <;> rw [hmap.rct, hstate.1] <;> simp

/-! ## Frames on which nothing fires in a state that fires nothing (R123, R138) -/

/-- The armed flags where no input fires: an absent signal arms, a present one leaves the flag (R123). -/
def rearmed (f : SenseFrame) (s : State) : Armed := { s.rfx.armed with
  bumperLeft := s.rfx.armed.bumperLeft || !f.bumperLeft
  bumperRight := s.rfx.armed.bumperRight || !f.bumperRight
  dropLeft := s.rfx.armed.dropLeft || !f.dropLeft
  dropRight := s.rfx.armed.dropRight || !f.dropRight
  cliff :=
    { fl := s.rfx.armed.cliff.fl || decide (s.tbs.cal.cliffThreshold ≤ f.cliffFL)
      fr := s.rfx.armed.cliff.fr || decide (s.tbs.cal.cliffThreshold ≤ f.cliffFR)
      sl := s.rfx.armed.cliff.sl || decide (s.tbs.cal.cliffThreshold ≤ f.cliffSL)
      sr := s.rfx.armed.cliff.sr || decide (s.tbs.cal.cliffThreshold ≤ f.cliffSR) } }

theorem rearmSense_arrived (f : SenseFrame) (s : State) : rearmSense f (arrived f s) = withArmed (rearmed f s) (arrived f s) := by
  have hclear (x : CliffSensor) : (!lowReading (arrived f s) f x) = decide (s.tbs.cal.cliffThreshold ≤ reflectance f x) := by
    rw [lowReading, ← decide_not]
    exact decide_eq_decide.mpr Nat.not_lt
  unfold rearmSense rearm
  simp only [hclear]
  rfl

/-- With no input that fires both ways of writing the flags agree. -/
theorem rearmed_of_settled (h : firing s f = []) :
    withArmed (rearmed f s) (arrived f s) = sensed f s := by
  obtain ⟨hdrops, hbumps, hcliffs⟩ : drops f s.rfx.armed = [] ∧ bumps f s.rfx.armed = [] ∧
      ([CliffSensor.fl, .fr, .sl, .sr].filter (lowAndArmed f s)).map Hazard.cliff = [] := by
    rw [firing_eq, List.append_eq_nil_iff, List.append_eq_nil_iff] at h
    exact ⟨h.1.1, h.1.2, h.2⟩
  have hwrite {p a : Bool} (hn : ¬(p && a) = true) : (a || !p) = !p := by
    cases p <;> cases a <;> simp at hn ⊢
  have hleft : ¬(f.dropLeft && s.rfx.armed.dropLeft) = true := fun e => by simp only [drops, e, if_true] at hdrops; cases hdrops
  have hright : ¬(f.dropRight && s.rfx.armed.dropRight) = true := fun e => by
    simp only [drops, if_neg hleft, e, if_true] at hdrops
    cases hdrops
  have hbump : ¬(f.bumperLeft && s.rfx.armed.bumperLeft) = true ∧ ¬(f.bumperRight && s.rfx.armed.bumperRight) = true := by
    unfold bumps at hbumps
    cases hl : f.bumperLeft && s.rfx.armed.bumperLeft <;>
      cases hr : f.bumperRight && s.rfx.armed.bumperRight <;> simp [hl, hr] at hbumps ⊢
  have hcliff (x : CliffSensor) : (s.rfx.armed.cliff.get x || decide (s.tbs.cal.cliffThreshold ≤ reflectance f x)) =
      decide (s.tbs.cal.cliffThreshold ≤ reflectance f x) := by
    have hlow : ¬lowAndArmed f s x = true := by
      rw [List.map_eq_nil_iff, List.filter_eq_nil_iff] at hcliffs
      exact hcliffs x (by cases x <;> simp)
    have := hwrite hlow
    rwa [← decide_not, decide_eq_decide.mpr Nat.not_lt] at this
  have harmed : rearmed f s = (sensed f s).rfx.armed := by
    unfold rearmed
    rw [hwrite hleft, hwrite hright, hwrite hbump.1, hwrite hbump.2]
    exact congrArg (fun c : PerSensor Bool => { s.rfx.armed with
      bumperLeft := !f.bumperLeft, bumperRight := !f.bumperRight, dropLeft := !f.dropLeft, dropRight := !f.dropRight, cliff := c })
      ((PerSensor.mk.injEq ..).mpr ⟨hcliff .fl, hcliff .fr, hcliff .sl, hcliff .sr⟩)
  rw [harmed]
  rfl

theorem frameEnd_settled (h : KeptSuspicions s f) (hf : firing s f = []) :
    frameEnd f ((firing s f).foldl (senseFire f) (sensed f s, none)) = dockFrame f (sensed f s) := by
  rw [hf]
  exact frameEnd_of_kept (keptSuspicions_sensed h)

/-- A frame on which no input fires and no suspicion ends (R123, R135). -/
theorem exec_senseFrame_of_settled (hwf : f.wellFormed = true) (h : Settled s f) (hl : s.rct.state ≠ .loading)
    (hlift : s.rct.state ≠ .lifted) : exec (.senseFrame f) s = .next (arbitrate (dockFrame f (sensed f s))) := by
  obtain ⟨hdrop, hf, hkept⟩ := h
  by_cases hfault : s.rct.state = .fault
  · have hhazards : senseHazards f (arrived f s) = rearmSense f (arrived f s) := by
      rw [senseHazards, hdrop, if_neg Bool.false_ne_true, if_neg (show ¬(arrived f s).rct.state = .lifted from hlift)]
      exact if_neg (by simp [mayFire_eq_false_iff.mpr (Or.inr (Or.inr (show (arrived f s).rct.state = .fault from hfault)))])
    rw [exec_senseFrame hwf hl, hhazards, rearmSense_arrived, rearmed_of_settled hf]
  · rw [exec_senseFrame_of_fires hwf (mayFire_eq_true hl hlift hfault) hdrop, frameEnd_settled hkept hf]

end

theorem entryState_mayFire {s : State} (h : EntryState s.rct.state) : mayFire s = true := by
  rcases h with (h | h | h | h) | h | h <;> simp [mayFire, h]

/-- The first input of a frame in a state that segments run in, or UNDOCKING, when it is not judged for trust. -/
theorem senseFire_of_cause {f : SenseFrame} {t : State} {h : Hazard} (hs : SegmentState t.rct.state ∨ t.rct.state = .undocking)
    (hcliff : ∀ x, h ≠ .cliff x) : senseFire f (t, none) h = fire h f.age none t := by
  have hne : t.rct.state ≠ .approach := by rcases hs with (h | h | h | h) | h <;> simp [h]
  cases h with
  | bump side => exact senseFire_bump side fun hc => hne hc.1
  | cliff x => exact absurd rfl (hcliff x)
  | drop x => rfl
  | stall x => rfl
  | jam => rfl

/-- A frame whose first input is its cause. -/
theorem exec_senseFrame_of_cause {f : SenseFrame} {s : State} {h : Hazard} {rest : List Hazard} (hwf : f.wellFormed = true)
    (hdrop : (f.dropLeft && f.dropRight) = false) (hf : firing s f = h :: rest) (hs : EntryState s.rct.state)
    (hfire : senseFire f (sensed f s, none) h = fire h f.age none (sensed f s)) : exec (.senseFrame f) s =
      .next (arbitrate (rest.foldl (laterInput f.age (segmentCount s)) (fire h f.age none (sensed f s)).1)) := by
  rw [exec_senseFrame_of_fires hwf (entryState_mayFire hs) hdrop, hf, List.foldl_cons, hfire]
  exact congrArg (fun t => Host.Outcome.next (arbitrate t)) (frameEnd_of_entered (t := sensed f s) h rest hs)

theorem senseFire_of_approach {f : SenseFrame} {t : State} {h : Hazard} (hs : t.rct.state = .approach)
    (hbump : ∀ side, h ≠ .bump side) : senseFire f (t, none) h = fire h f.age none t := by
  cases h with
  | bump side => exact absurd rfl (hbump side)
  | cliff x => exact senseFire_cliff (by simp [hs, judgesTrust, RunState.moving])
  | drop x => rfl
  | stall x => rfl
  | jam => rfl

theorem senseFire_of_reflex {f : SenseFrame} {t : State} (hs : t.rct.state = .reflex) (h : Hazard) :
    senseFire f (t, none) h = fire h f.age none t := by
  cases h with
  | bump side => exact senseFire_bump side (by simp [hs])
  | cliff x => exact senseFire_cliff (by simp [hs, judgesTrust, RunState.moving])
  | drop x => rfl
  | stall x => rfl
  | jam => rfl

/-- A frame in REFLEX: the first input is the second cause (R137). -/
theorem exec_senseFrame_of_reflex {f : SenseFrame} {s : State} {h : Hazard} {rest : List Hazard} (hwf : f.wellFormed = true)
    (hdrop : (f.dropLeft && f.dropRight) = false) (hf : firing s f = h :: rest) (hs : s.rct.state = .reflex) :
    exec (.senseFrame f) s = .next (arbitrate (rest.foldl eventAlone (fire h f.age none (sensed f s)).1)) := by
  have hmay : mayFire s = true := by simp [mayFire, hs]
  rw [exec_senseFrame_of_fires hwf hmay hdrop, hf, List.foldl_cons, senseFire_of_reflex (t := sensed f s) hs]
  exact congrArg (fun t => Host.Outcome.next (arbitrate t)) (frameEnd_of_aborted (t := sensed f s) h rest hs)

/-- A frame in IDLE, HOLD or DOCKED: every input raises its event alone (R124). -/
theorem exec_senseFrame_of_idle {f : SenseFrame} {s : State} (hwf : f.wellFormed = true) (hdrop : (f.dropLeft && f.dropRight) = false)
    (hs : s.rct.state = .idle ∨ s.rct.state = .hold ∨ s.rct.state = .docked) (hkept : KeptSuspicions s f) :
    exec (.senseFrame f) s = .next (arbitrate (dockFrame f ((firing s f).foldl eventAlone (sensed f s)))) := by
  have hmay : mayFire s = true := by rcases hs with h | h | h <;> simp [mayFire, h]
  have hmap := eventsAlone_mapOnly (firing s f) (sensed f s)
  rw [exec_senseFrame_of_fires hwf hmay hdrop, senseFires_of_idle (t := sensed f s) _ hs, frameEnd_of_kept]
  exact (keptSuspicions_sensed hkept).congr (by rw [hmap.rfx]) hmap.tbs (by rw [hmap.pot])

/-- Settles O30. -/
theorem bumpersAndDropsFireWhileArmed : Obligations.BumpersAndDropsFireWhileArmed := by
  intro f s hwf v later
  refine ⟨fun hset hl hlift hh ha hd => ?_, fun hdrop hkept => ⟨fun hs => ?_, fun hs => ?_⟩,
    fun h rest hdrop hf => ⟨fun hs => ?_, fun hs hcliff => ?_, fun hs hbump => ?_⟩, fun hs => ?_⟩
  · rw [exec_senseFrame_of_settled hwf hset hl hlift, dockFrame_of_other (t := sensed f s) hh ha hd]
  · have hmap := eventsAlone_mapOnly (firing s f) (sensed f s)
    rw [exec_senseFrame_of_idle hwf hdrop (hs.imp id .inl) hkept]
    refine congrArg (fun t => Host.Outcome.next (arbitrate t)) (dockFrame_of_other ?_ ?_ ?_) <;> rw [hmap.rct] <;>
      rcases hs with e | e <;> rw [show (sensed f s).rct.state = _ from e] <;> simp
  · exact exec_senseFrame_of_idle hwf hdrop (.inr (.inr hs)) hkept
  · exact exec_senseFrame_of_reflex hwf hdrop hf hs
  · exact exec_senseFrame_of_cause hwf hdrop hf (hs.imp id .inl) (senseFire_of_cause (t := sensed f s) hs hcliff)
  · exact exec_senseFrame_of_cause hwf hdrop hf (.inr (.inr hs)) (senseFire_of_approach (t := sensed f s) hs hbump)
  · have hhazards : senseHazards f (arrived f s) = rearmSense f (arrived f s) := by
      have hmay : mayFire (arrived f s) = false := mayFire_eq_false_iff.mpr (.inr (.inr hs))
      have hmay' : mayFire (rearmSense f (arrived f s)) = false := hmay
      rw [senseHazards]
      split
      · exact if_neg (by simp [hmay])
      · rw [if_neg (by rw [show (arrived f s).rct.state = _ from hs]; simp)]
        exact if_neg (by simp [hmay])
    rw [exec_senseFrame hwf (by simp [hs]), hhazards, rearmSense_arrived, dockFrame_of_other (t := withArmed _ (arrived f s))]
    · rfl
    all_goals rw [show (withArmed (rearmed f s) (arrived f s)).rct.state = _ from hs]; simp

end Sys2Proof.Machine
end

section
/-! The trust of a cliff firing, and the suspicions that a frame opens, discounts and confirms (R133 to R137, R139). -/

namespace Sys2Proof.Machine

/-! ## Lookups that hit change the recency order alone (R42) -/

/-- Two states differ in the recency order alone. -/
def RecencyOnly (s t : State) : Prop := ∃ recency : List SlotNo, t = { s with twn := { s.twn with recency := recency } }

theorem RecencyOnly.refl (s : State) : RecencyOnly s s := ⟨s.twn.recency, rfl⟩

theorem RecencyOnly.trans {s t u : State} (h : RecencyOnly s t) (h' : RecencyOnly t u) : RecencyOnly s u := by
  obtain ⟨r, rfl⟩ := h
  obtain ⟨r', rfl⟩ := h'
  exact ⟨r', rfl⟩

theorem RecencyOnly.sameTiles {s t : State} (h : RecencyOnly s t) : SameTiles s t := by
  obtain ⟨r, rfl⟩ := h
  exact ⟨rfl, rfl, rfl⟩

theorem lookup_recencyOnly {c : Cell} {s : State} {cls : CellClass} (h : classAt s c = some cls) :
    RecencyOnly s (lookup c s).2 := by
  rw [← lookup_fst] at h
  rcases lookup_cases c s with ⟨-, e⟩ | ⟨_, _, _, -, -, e⟩ | ⟨i, t, -, -, -, e⟩
  · simp [e] at h
  · simp [e] at h
  · rw [e]
    exact ⟨_, rfl⟩

/-! ## The cells around a sensor (R133) -/

section
variable {near : Int × Int → Option Cell} {s : State} {d : Int × Int}

/-- A place lies on the level, at a known cell of no edge class. -/
def SafeAt (near : Int × Int → Option Cell) (s : State) (d : Int × Int) : Prop :=
  ∃ c cls, near d = some c ∧ classAt s c = some cls ∧ s.tbs.response[cls].edge = false

/-- The state after one place is looked up. -/
def lookedAt (near : Int × Int → Option Cell) (u : State) (d : Int × Int) : State := (lookupOrOffMap (near d) u).2

theorem SafeAt.recencyOnly (h : SafeAt near s d) : RecencyOnly s (lookedAt near s d) := by
  obtain ⟨c, cls, hc, hcls, -⟩ := h
  rw [lookedAt, hc]
  exact lookup_recencyOnly hcls

theorem SameTiles.safeAt_iff {t : State} (h : SameTiles s t) : SafeAt near t d ↔ SafeAt near s d := by
  simp only [SafeAt, h.classAt_eq, h.2.2]

theorem noEdgeNear_of_safe (h : SafeAt near s d) (rest : List (Option Cell)) :
    noEdgeNear (near d :: rest) s = noEdgeNear rest (lookedAt near s d) := by
  have hsame := h.recencyOnly.sameTiles
  obtain ⟨c, cls, hc, hcls, hedge⟩ := h
  have hfst : (lookupOrOffMap (near d) s).1 = some cls := by rw [hc]; exact (lookup_fst c s).trans hcls
  rw [noEdgeNear]
  simp only [hfst]
  rw [if_neg]
  · rfl
  · show ¬(lookedAt near s d).tbs.response[cls].edge = true
    rw [hsame.2.2, hedge]
    exact Bool.false_ne_true

theorem noEdgeNear_of_unsafe (h15 : s.tbs.response[15].edge = true) (h : ¬SafeAt near s d) (rest : List (Option Cell)) :
    noEdgeNear (near d :: rest) s = (false, lookedAt near s d) := by
  rw [noEdgeNear]
  cases hc : near d with
  | none =>
    rw [lookedAt, hc]
    exact if_pos h15
  | some c =>
    have htbs : (lookup c s).2.tbs = s.tbs := (lookup_windowOnly c s).tbs
    rw [lookedAt, hc]
    simp only [lookupOrOffMap, lookup_fst]
    cases hcls : classAt s c with
    | none => rfl
    | some cls =>
      refine if_pos ?_
      rw [responseOf, htbs]
      exact Bool.eq_true_of_not_eq_false fun hedge => h ⟨c, cls, hc, hcls, hedge⟩

/-- The places before the first that stops are looked up, and that one too. -/
theorem noEdgeNear_of_first_unsafe {before after : List (Int × Int)} (h15 : s.tbs.response[15].edge = true)
    (hbefore : ∀ b ∈ before, SafeAt near s b) (h : ¬SafeAt near s d) :
    noEdgeNear ((before ++ d :: after).map near) s = (false, (before ++ [d]).foldl (lookedAt near) s) := by
  induction before generalizing s with
  | nil => exact noEdgeNear_of_unsafe h15 h _
  | cons b rest ih =>
    have hb := hbefore b List.mem_cons_self
    have hsame := hb.recencyOnly.sameTiles
    rw [List.cons_append, List.map_cons, noEdgeNear_of_safe hb, ih]
    · rfl
    · rw [hsame.2.2]; exact h15
    · exact fun c hc => hsame.safeAt_iff.mpr (hbefore c (List.mem_cons_of_mem b hc))
    · exact mt hsame.safeAt_iff.mp h

/-- When every place is safe all are looked up, and the recency order alone changes. -/
theorem noEdgeNear_of_all_safe {ds : List (Int × Int)} (h : ∀ d ∈ ds, SafeAt near s d) :
    noEdgeNear (ds.map near) s = (true, ds.foldl (lookedAt near) s) ∧ RecencyOnly s (ds.foldl (lookedAt near) s) := by
  induction ds generalizing s with
  | nil => exact ⟨rfl, .refl s⟩
  | cons d rest ih =>
    have hd := h d List.mem_cons_self
    obtain ⟨heq, honly⟩ := ih (s := lookedAt near s d) fun c hc =>
      hd.recencyOnly.sameTiles.safeAt_iff.mpr (h c (List.mem_cons_of_mem d hc))
    rw [List.map_cons, noEdgeNear_of_safe hd]
    exact ⟨heq, hd.recencyOnly.trans honly⟩

end

/-! ## The judgement (R133) -/

section
variable {x : CliffSensor} {t : State}

/-- The cell under a cliff sensor. -/
def sensorCell (x : CliffSensor) (t : State) : Cell :=
  offsetCell t.pot.pose.base (sensorOffset t.tbs.cal x).1 (sensorOffset t.tbs.cal x).2

theorem judgeTrust_of_invalid (h : t.pot.pose.valid = false) : judgeTrust x t = (false, t) := if_neg (by simp [h])

theorem judgeTrust_of_unknown (h : t.pot.pose.valid = true) (hcls : classAt t (sensorCell x t) = none) :
    judgeTrust x t = (false, (lookup (sensorCell x t) t).2) := by
  have hfst := (lookup_fst (sensorCell x t) t).trans hcls
  unfold sensorCell at hfst ⊢
  rw [judgeTrust, if_pos h]
  simp only [hfst]

theorem judgeTrust_of_class {cls : CellClass} (h : t.pot.pose.valid = true) (hcls : classAt t (sensorCell x t) = some cls) :
    judgeTrust x t =
      if t.tbs.response[cls].trust = .confirm then
        (!t.tbs.response[cls].edge && (noEdgeNear (neighbourhood (sensorCell x t)) (lookup (sensorCell x t) t).2).1,
          (noEdgeNear (neighbourhood (sensorCell x t)) (lookup (sensorCell x t) t).2).2)
      else (false, (lookup (sensorCell x t) t).2) := by
  have hfst := (lookup_fst (sensorCell x t) t).trans hcls
  have htbs : (lookup (sensorCell x t) t).2.tbs = t.tbs := (lookup_windowOnly _ _).tbs
  unfold sensorCell at hfst htbs ⊢
  rw [judgeTrust, if_pos h]
  simp only [hfst, responseOf, htbs]

end

/-! ## The suspicions that a frame opens (R134) -/

theorem suspicionsOpened_keeps (xs : List CliffSensor) (t : State) :
    (xs.foldl suspicionOpened t).rct = t.rct ∧ (xs.foldl suspicionOpened t).mgt = t.mgt ∧
      (xs.foldl suspicionOpened t).tbs = t.tbs ∧ (xs.foldl suspicionOpened t).pot = t.pot := by
  induction xs generalizing t with
  | nil => exact ⟨rfl, rfl, rfl, rfl⟩
  | cons x rest ih =>
    have hw := (judgeTrust_frame x t).1
    obtain ⟨hrct, hmgt, htbs, hpot⟩ := ih (suspicionOpened t x)
    exact ⟨hrct.trans hw.rct, hmgt.trans hw.mgt, htbs.trans hw.tbs, hpot.trans hw.pot⟩

/-- A suspicion after some are opened is an old one or one of those, just opened. -/
theorem suspicionsOpened_get {xs : List CliffSensor} {t : State} {y : CliffSensor} {m : Measure}
    (h : (xs.foldl suspicionOpened t).rfx.suspects.get y = some m) :
    t.rfx.suspects.get y = some m ∨ y ∈ xs ∧ m = { travel := 0, start := t.pot.timeCount } := by
  induction xs generalizing t with
  | nil => exact .inl h
  | cons x rest ih =>
    have hpot : (suspicionOpened t x).pot = t.pot := (judgeTrust_frame x t).1.pot
    rcases ih h with hold | ⟨hmem, hnew⟩
    · change (t.rfx.suspects.set x _).get y = some m at hold
      rw [PerSensor.get_set] at hold
      split at hold
      · next e => exact .inr ⟨e ▸ List.mem_cons_self, (Option.some.inj hold).symm⟩
      · exact .inl hold
    · exact .inr ⟨List.mem_cons_of_mem x hmem, hpot ▸ hnew⟩

section
variable {f : SenseFrame} {s : State}

theorem AllConfirm.tail {x : CliffSensor} {xs : List CliffSensor} {t : State} (h : AllConfirm (x :: xs) t) :
    AllConfirm xs (suspicionOpened t x) :=
  fun before y after e => h (x :: before) y after (congrArg (x :: ·) e)

theorem senseFires_of_allConfirm {xs : List CliffSensor} {t : State} (hj : judgesTrust t.rct.state = true)
    (h : AllConfirm xs t) : (xs.map Hazard.cliff).foldl (senseFire f) (t, none) = (xs.foldl suspicionOpened t, none) := by
  induction xs generalizing t with
  | nil => rfl
  | cons x rest ih =>
    have hrct : (suspicionOpened t x).rct = t.rct := (judgeTrust_frame x t).1.rct
    rw [List.map_cons, List.foldl_cons, senseFire_confirm (r := (t, none)) ⟨rfl, hj⟩ (h [] x rest rfl)]
    exact ih (by rw [hrct]; exact hj) h.tail

theorem lowAndArmed_of_mem_firing {x : CliffSensor} (h : Hazard.cliff x ∈ firing s f) : lowAndArmed f s x = true := by
  rw [firing_eq, List.mem_append, List.mem_append] at h
  rcases h with (h | h) | h
  · unfold drops at h
    split at h
    · simp at h
    · split at h <;> simp at h
  · unfold bumps at h
    dsimp only at h
    split at h
    · simp at h
    · split at h
      · simp at h
      · split at h <;> simp at h
  · simp only [List.mem_map, Hazard.cliff.injEq, exists_eq_right] at h
    exact (List.mem_filter.mp h).2

theorem judgesTrust_of_state (h : SegmentState s.rct.state ∨ s.rct.state = .undocking) : judgesTrust s.rct.state = true := by
  rcases h with (h | h | h | h) | h <;> rw [h] <;> rfl

/-- A suspicion just opened is not ripe: the confirm distance and the confirm time are not zero (R11, R135). -/
theorem not_ripe_of_opened (h : TableLaw s) : ¬Ripe s { travel := 0, start := s.pot.timeCount } := by
  have hdistance := h.cal.confirmDistance.1
  have htime := h.cal.confirmTime.1
  simp only [Ripe, BitVec.sub_self]
  intro hripe
  rcases hripe with hripe | hripe
  · omega
  · rw [show (0#32).toNat = 0 from rfl] at hripe
    omega

/-- The suspicions of a frame stay beside those that it opens (R134, R135). -/
theorem keptSuspicions_of_opened {xs : List CliffSensor} (hf : firing s f = xs.map Hazard.cliff) (h : KeptSuspicions s f)
    (htable : TableLaw s) : KeptSuspicions (xs.foldl suspicionOpened (sensed f s)) f := by
  obtain ⟨-, -, htbs, hpot⟩ := suspicionsOpened_keeps xs (sensed f s)
  intro y m hm
  unfold Ripe
  rw [htbs, hpot]
  rcases suspicionsOpened_get hm with hold | ⟨hmem, rfl⟩
  · exact h y m hold
  · have hlow := lowAndArmed_of_mem_firing (s := s) (f := f) (hf ▸ List.mem_map_of_mem hmem)
    exact ⟨of_decide_eq_true (Bool.and_eq_true_iff.mp hlow).1, not_ripe_of_opened
      (show TableLaw (sensed f s) from ⟨htable.response, htable.learn, htable.braking, htable.cal, htable.dock⟩)⟩

/-- A frame on which cliff sensors alone fire, the first of IMMEDIATE trust after some of CONFIRM trust. -/
theorem exec_senseFrame_of_immediate {before after : List CliffSensor} {x : CliffSensor} (hwf : f.wellFormed = true)
    (hdrop : (f.dropLeft && f.dropRight) = false) (hs : SegmentState s.rct.state ∨ s.rct.state = .undocking)
    (hf : firing s f = (before ++ x :: after).map Hazard.cliff) (hbefore : AllConfirm before (sensed f s))
    (himm : (judgeTrust x (before.foldl suspicionOpened (sensed f s))).1 = false) :
    exec (.senseFrame f) s = .next (arbitrate ((after.map Hazard.cliff).foldl (laterInput f.age (segmentCount s))
      (fire (.cliff x) f.age none (judgeTrust x (before.foldl suspicionOpened (sensed f s))).2).1)) := by
  have hentry : EntryState s.rct.state := hs.imp id .inl
  have hj : judgesTrust (sensed f s).rct.state = true := judgesTrust_of_state hs
  obtain ⟨hrct, hmgt, -, -⟩ := suspicionsOpened_keeps before (sensed f s)
  have hw := (judgeTrust_frame x (before.foldl suspicionOpened (sensed f s))).1
  rw [exec_senseFrame_of_fires hwf (entryState_mayFire hentry) hdrop, hf, List.map_append, List.foldl_append,
    senseFires_of_allConfirm hj hbefore, List.map_cons, List.foldl_cons,
    senseFire_immediate (r := (before.foldl suspicionOpened (sensed f s), none)) ⟨rfl, by rw [hrct]; exact hj⟩ himm,
    frameEnd_of_entered _ _ (by rw [hw.rct, hrct]; exact hentry)]
  unfold segmentCount
  rw [hw.mgt, hmgt]
  rfl

end

/-- Settles O31. -/
theorem cliffFiresByTrust : Obligations.CliffFiresByTrust := by
  constructor
  · intro x t htable o cell near safe others looked
    have hlooked (ds : List (Int × Int)) : looked ds = ds.foldl (lookedAt near) (lookup cell t).2 := by
      refine congrArg (fun g => ds.foldl g (lookup cell t).2) (funext₂ fun u d => ?_)
      unfold lookedAt
      cases near d <;> rfl
    have hcell : sensorCell x t = cell := rfl
    have hcells : neighbourhood cell = others.map near := rfl
    refine ⟨judgeTrust_of_invalid, fun hv => ⟨judgeTrust_of_unknown hv, fun cls hcls => ?_⟩⟩
    have hsame := (lookup_recencyOnly hcls).sameTiles
    have hjudge := judgeTrust_of_class hv hcls
    refine ⟨fun himm => hjudge.trans (if_neg (by rw [himm]; decide)),
      fun hconf => ⟨fun before d after hsplit hbefore hd => ?_, fun hall => ?_⟩⟩
    · have h15 : (lookup cell t).2.tbs.response[15].edge = true := by rw [hsame.2.2, htable.response.1]
      have hnear := noEdgeNear_of_first_unsafe (after := after) h15 (fun b hb => hsame.safeAt_iff.mpr (hbefore b hb))
        (mt hsame.safeAt_iff.mp hd)
      rw [hjudge, if_pos hconf, hcell, hcells, hsplit, hlooked, hnear, Bool.and_false]
    · obtain ⟨hnear, honly⟩ := noEdgeNear_of_all_safe fun d hd => hsame.safeAt_iff.mpr (hall d hd)
      rw [hlooked]
      refine ⟨?_, (lookup_recencyOnly hcls).trans honly⟩
      rw [hjudge, if_pos hconf, hcell, hcells, hnear, Bool.and_true]
  · intro f x after s hwf hdrop v later enters
    refine ⟨fun hs => ⟨fun before hf hbefore himm => exec_senseFrame_of_immediate hwf hdrop hs hf hbefore himm,
      fun hf hall hkept htable => ?_⟩, fun hf => ⟨fun hs => ?_, fun hs => exec_senseFrame_of_reflex hwf hdrop hf hs,
      fun hs hkept => ?_⟩⟩
    · rw [exec_senseFrame_of_fires hwf (entryState_mayFire (hs.imp id .inl)) hdrop, hf,
        senseFires_of_allConfirm (t := sensed f s) (judgesTrust_of_state hs) hall,
        frameEnd_of_kept (keptSuspicions_of_opened hf hkept htable)]
    · exact exec_senseFrame_of_cause hwf hdrop hf (.inr (.inr hs))
        (senseFire_of_approach (t := sensed f s) hs fun _ => Hazard.noConfusion)
    · rw [exec_senseFrame_of_idle hwf hdrop hs hkept, hf]

/-! ## The open suspicions, one after another (R135, R136) -/

section
variable {f : SenseFrame} {t : State} {x y : CliffSensor}

theorem suspicionDiscounted_of_clear (h : (t.rfx.suspects.get x).isSome = true ∧ t.tbs.cal.cliffThreshold ≤ reflectance f x) :
    suspicionDiscounted f t x = raise .cliffDiscounted (.sensor x) (withSuspect x none t) :=
  if_pos (by simp [h])

theorem suspicionDiscounted_of_kept
    (h : t.rfx.suspects.get x = none ∨ reflectance f x < t.tbs.cal.cliffThreshold) : suspicionDiscounted f t x = t := by
  refine if_neg ?_
  rcases h with h | h
  · simp [h]
  · simp [Nat.not_le.mpr h]

/-- Discounting a sensor's suspicion changes the suspect record of that sensor alone, of all that the others' judgement reads. -/
theorem suspicionDiscounted_keeps (f : SenseFrame) (t : State) (y : CliffSensor) :
    (suspicionDiscounted f t y).rct = t.rct ∧ (suspicionDiscounted f t y).tbs = t.tbs ∧
      (suspicionDiscounted f t y).pot = t.pot ∧
      ∀ x, y ≠ x → (suspicionDiscounted f t y).rfx.suspects.get x = t.rfx.suspects.get x := by
  unfold suspicionDiscounted
  split
  · exact ⟨rfl, rfl, rfl, fun x hne => (PerSensor.get_set ..).trans (if_neg hne)⟩
  · exact ⟨rfl, rfl, rfl, fun _ _ => rfl⟩

theorem suspicionConfirmed_discounted (h : y ≠ x) :
    SuspicionConfirmed f (suspicionDiscounted f t y) x ↔ SuspicionConfirmed f t x := by
  obtain ⟨-, htbs, hpot, hget⟩ := suspicionDiscounted_keeps f t y
  simp only [SuspicionConfirmed, Ripe, hget x h, htbs, hpot]

theorem judgeOpen_of_not_confirmed (e : Option Nat) (h : ¬SuspicionConfirmed f t x) :
    judgeOpen f (t, e) x = (suspicionDiscounted f t x, e) := by
  unfold judgeOpen
  cases hm : t.rfx.suspects.get x with
  | none => rw [suspicionDiscounted_of_kept (.inl hm)]
  | some m =>
    by_cases hclear : t.tbs.cal.cliffThreshold ≤ reflectance f x
    · rw [suspicionDiscounted_of_clear ⟨by rw [hm]; rfl, hclear⟩]
      exact if_pos (decide_eq_true hclear)
    · have hlow := Nat.not_le.mp hclear
      have hripe : ¬suspicionRipe t m = true := fun hr => h ⟨m, hm, hlow, suspicionRipe_iff.mp hr⟩
      rw [suspicionDiscounted_of_kept (.inr hlow)]
      exact (if_neg (by simp [clearAt, hclear])).trans (if_neg hripe)

theorem judgeOpen_of_confirmed (e : Option Nat) (h : SuspicionConfirmed f t x) :
    judgeOpen f (t, e) x = fire (.cliff x) f.age e (withSuspect x none t) := by
  obtain ⟨m, hm, hlow, hripe⟩ := h
  unfold judgeOpen
  simp only [hm]
  exact (if_neg (by simp [clearAt, hlow])).trans (if_pos (suspicionRipe_iff.mpr hripe))

/-- A reflex entry closes every suspicion, the one that fires too (R136). -/
theorem fire_withSuspect (h : Hazard) (age : Nat) (m : Option Measure) (hs : EntryState t.rct.state) :
    fire h age none (withSuspect x m t) = fire h age none t := by
  rw [fire_of_entryState h age hs, fire_of_entryState (s := withSuspect x m t) h age hs]
  rcases hs with hs | hs | hs
  · rw [enterReflex_of_not_approach h age (.inl hs), enterReflex_of_not_approach (s := withSuspect x m t) h age (.inl hs)]
    rfl
  · rw [enterReflex_of_not_approach h age (.inr hs), enterReflex_of_not_approach (s := withSuspect x m t) h age (.inr hs)]
    rfl
  · rw [enterReflex_of_approach h age hs, enterReflex_of_approach (s := withSuspect x m t) h age hs]
    rfl

theorem judgeOpens_of_not_confirmed {xs : List CliffSensor} (e : Option Nat) (hx : xs.Nodup)
    (h : ∀ y ∈ xs, ¬SuspicionConfirmed f t y) : xs.foldl (judgeOpen f) (t, e) = (xs.foldl (suspicionDiscounted f) t, e) := by
  induction xs generalizing t with
  | nil => rfl
  | cons x rest ih =>
    obtain ⟨hnot, hrest⟩ := List.nodup_cons.mp hx
    rw [List.foldl_cons, List.foldl_cons, judgeOpen_of_not_confirmed e (h x List.mem_cons_self)]
    refine ih hrest fun y hy => mt (suspicionConfirmed_discounted ?_).mp (h y (List.mem_cons_of_mem x hy))
    rintro rfl
    exact hnot hy

theorem suspicionsDiscounted_keeps {before : List CliffSensor} (h : x ∉ before) :
    (before.foldl (suspicionDiscounted f) t).rct = t.rct ∧
      (SuspicionConfirmed f (before.foldl (suspicionDiscounted f) t) x ↔ SuspicionConfirmed f t x) := by
  induction before generalizing t with
  | nil => exact ⟨rfl, .rfl⟩
  | cons y rest ih =>
    obtain ⟨hne, hrest⟩ := not_or.mp (mt List.mem_cons.mpr h)
    obtain ⟨hrct, hconf⟩ := ih (t := suspicionDiscounted f t y) hrest
    exact ⟨hrct.trans (suspicionDiscounted_keeps f t y).1, hconf.trans (suspicionConfirmed_discounted (Ne.symm hne))⟩

theorem frameEnd_of_not_confirmed (h : ∀ x, ¬SuspicionConfirmed f t x) :
    frameEnd f (t, none) = dockFrame f ([CliffSensor.fl, .fr, .sl, .sr].foldl (suspicionDiscounted f) t) := by
  rw [frameEnd, judgeOpens_of_not_confirmed none (by decide) fun y _ => h y]

/-- The first suspicion that is confirmed is the frame's entry; those behind it are closed unjudged (R135, R136). -/
theorem frameEnd_of_confirmed {before after : List CliffSensor} (hs : EntryState t.rct.state)
    (hsplit : [CliffSensor.fl, .fr, .sl, .sr] = before ++ x :: after) (hbefore : ∀ y ∈ before, ¬SuspicionConfirmed f t y)
    (h : SuspicionConfirmed f t x) :
    frameEnd f (t, none) = (fire (.cliff x) f.age none (before.foldl (suspicionDiscounted f) t)).1 := by
  have hnodup : (before ++ x :: after).Nodup := hsplit ▸ by decide
  have hx : x ∉ before := fun hmem => (List.nodup_append.mp hnodup).2.2 x hmem x List.mem_cons_self rfl
  obtain ⟨hrct, hconf⟩ := suspicionsDiscounted_keeps (f := f) (t := t) hx
  have hentry : EntryState (before.foldl (suspicionDiscounted f) t).rct.state := by rw [hrct]; exact hs
  obtain ⟨-, hstate, hnone⟩ := fire_entered (.cliff x) f.age hentry
  rw [frameEnd, hsplit, List.foldl_append, judgeOpens_of_not_confirmed none (List.nodup_append.mp hnodup).1 hbefore,
    List.foldl_cons, judgeOpen_of_confirmed none (hconf.mpr h), fire_withSuspect _ _ _ hentry,
    judgeOpens_of_kept (keptSuspicions_of_none hnone)]
  refine dockFrame_of_other ?_ ?_ ?_ <;> rw [hstate] <;> simp

end

/-- Settles O32. -/
theorem suspicionIsConfirmedKeptOrDiscounted : Obligations.SuspicionIsConfirmedKeptOrDiscounted := by
  intro f s t hwf hdrop hcase sensors
  obtain ⟨hentry, hexec⟩ : EntryState t.rct.state ∧ exec (.senseFrame f) s = .next (arbitrate (frameEnd f (t, none))) := by
    rcases hcase with ⟨hs, xs, hf, hall, rfl⟩ | ⟨hs, ht, hfired⟩
    · have hentry : EntryState s.rct.state := hs.imp id .inl
      have hrct := (suspicionsOpened_keeps xs (sensed f s)).1
      refine ⟨by rw [hrct]; exact hentry, ?_⟩
      rw [exec_senseFrame_of_fires hwf (entryState_mayFire hentry) hdrop, hf,
        senseFires_of_allConfirm (t := sensed f s) (judgesTrust_of_state hs) hall]
    · refine ⟨.inr (.inr ht), ?_⟩
      rw [exec_senseFrame_of_fires hwf (entryState_mayFire (.inr (.inr hs))) hdrop]
      rcases hfired with ⟨hf, rfl⟩ | ⟨side, hf, rfl⟩
      · rw [hf, List.foldl_nil]
      · rw [hf, List.foldl_cons, List.foldl_nil, senseFire_approachBump (r := (sensed f s, none)) side ⟨hs, rfl⟩]
  rw [hexec]
  exact ⟨fun hnone => by rw [frameEnd_of_not_confirmed hnone],
    fun before x after hsplit hbefore h => by rw [frameEnd_of_confirmed hentry hsplit hbefore h]⟩

end Sys2Proof.Machine
end

section
/-! Both wheels dropped, and what the DAU does with a sense frame: hand-over, tracking, search, contact, approach bumps and
DOCKED (R30, R34, R118, R138, R139, R144, R145, R148 to R153). -/

namespace Sys2Proof.Machine

/-! ## LIFTED (R30, R118, R138) -/

theorem enterLifted_eq (s : State) : enterLifted s = raise .lifted (.discarded (segmentCount s)) { s with
    rct := { s.rct with state := .lifted, pendingStep := false }
    mgt := { s.mgt with queue := [], current := none, starved := false }
    rfx := { s.rfx with phase := .none, suspects := noSuspects }
    dau := if s.rct.state = .approach ∨ s.rct.state = .docked ∨ s.rct.state = .undocking then idleDock else s.dau
    dli := { s.dli with
      lastSetpoints := (0, 0)
      leaving := leavingAfter (.setpoint 0 0) s.dli.leaving
      waiting := waitingAfter (.setpoint 0 0) s.dli.leaving s.dli.waiting } } := by
  rw [enterLifted, discardCount_eq, enterDiscarding, changeRun_of_still rfl (by simp), sendZero_eq,
    ← dau_of_docking (next := .lifted) rfl]
  rfl

theorem endLifted_eq {s : State} (hs : s.rct.state = .lifted) : endLifted s = raise .poseLost .lifted { s with
    pot := { s.pot with pose := { s.pot.pose with valid := false } }
    rct := { s.rct with state := .hold, pendingStep := false }
    rfx := { s.rfx with phase := .none, suspects := noSuspects } } := by
  rw [endLifted, changeRun_hold_of_not_docking (by rw [hs]; rfl)]
  rfl

/-- Settles O33. -/
theorem bothWheelsDroppedIsLifted : Obligations.BothWheelsDroppedIsLifted := by
  intro f s hwf a
  have hrearm : rearmSense f (arrived f s) = withArmed a (arrived f s) := rearmSense_arrived f s
  refine ⟨fun hleft hright hl hlift hfault => ?_, fun hs hleft hright => ?_, fun hs hdrop => ?_⟩
  · have hhazards : senseHazards f (arrived f s) = enterLifted (withArmed a (arrived f s)) := by
      rw [senseHazards, hleft, hright, ← hrearm]
      exact if_pos (mayFire_eq_true (s := arrived f s) hl hlift hfault)
    rw [exec_senseFrame hwf hl, hhazards, enterLifted_eq, dockFrame_of_other]
    · rfl
    all_goals simp
  · have hhazards : senseHazards f (arrived f s) = endLifted (withArmed a (arrived f s)) := by
      rw [senseHazards, hleft, hright, ← hrearm]
      exact if_pos hs
    rw [exec_senseFrame hwf (by simp [hs]), hhazards, endLifted_eq (s := withArmed a (arrived f s)) hs, dockFrame_of_other]
    · rfl
    all_goals simp
  · have hhazards : senseHazards f (arrived f s) = withArmed a (arrived f s) := by
      have hmay : ¬mayFire (arrived f s) = true := by
        rw [mayFire_eq_false_iff (s := arrived f s) |>.mpr (.inr (.inl hs))]
        exact Bool.false_ne_true
      rw [senseHazards, ← hrearm]
      by_cases hboth : (f.dropLeft && f.dropRight) = true
      · exact (if_pos hboth).trans (if_neg hmay)
      · refine (if_neg hboth).trans ((if_pos hs).trans (if_neg ?_))
        rcases hdrop with h | h <;> simp [h]
    rw [exec_senseFrame hwf (by simp [hs]), hhazards, dockFrame_of_other (t := withArmed a (arrived f s))]
    · rfl
    all_goals rw [show (withArmed a (arrived f s)).rct.state = _ from hs]; simp

/-! ## What the DAU reads of a frame (R144, R145) -/

section
variable {f : SenseFrame} {t : State}

theorem observation_eq (t : State) (f : SenseFrame) : observation t f = seenSector t f := by
  unfold observation seenSector
  cases f.beacon with
  | none => rfl
  | some b =>
    by_cases hcode : b.code = t.tbs.dock.code
    · simp only [hcode, if_true, ne_eq, not_true_eq_false, if_false, sectorOf]
      cases b.centre <;> simp
    · simp [hcode]

theorem centreSeen_iff : centreSeen t f = true ↔ ∃ b, f.beacon = some b ∧ b.code = t.tbs.dock.code ∧ b.centre = true := by
  unfold centreSeen
  cases f.beacon <;> simp

theorem dockFrame_of_homing (h : t.rct.state = .homing) :
    dockFrame f t = if centreSeen t f && withinRadius t then handOver t else t := by
  simp only [dockFrame, h]

theorem dockFrame_of_approach (h : t.rct.state = .approach) : dockFrame f t = approachFrame f t := by
  simp only [dockFrame, h]

theorem dockFrame_of_docked (h : t.rct.state = .docked) : dockFrame f t = watchContact f t := by
  simp only [dockFrame, h]

theorem handOver_eq (t : State) : handOver t = { t with
    rct := { t.rct with state := .approach, pendingStep := false }
    mgt := { t.mgt with queue := [], current := none, starved := false }
    rfx := { t.rfx with phase := .none, approachBumps := 0 }
    dau := { phase := .track, lastSector := some .centre, beaconTimer := some t.pot.timeCount, searchTurn := 0,
             contactCount := 0, idWait := 0, reverse := none } } := by
  have hstep : (t.rct.pendingStep && RunState.approach == .step) = false := Bool.and_false _
  rw [handOver, enterDiscarding, changeRun_eq]
  simp only [discardSegments_rct, hstep]
  rfl

/-! ## HOMING and DOCKED (R145, R153) -/

theorem watchContact_of_contact (h : f.contact = true) :
    watchContact f t = { t with dau := { t.dau with contactCount := 0 } } := if_pos h

theorem watchContact_of_fewer (h : f.contact = false) (hc : t.dau.contactCount < 4) :
    watchContact f t = { t with dau := { t.dau with contactCount := t.dau.contactCount + 1 } } :=
  (if_neg (by simp [h])).trans (if_neg (by omega))

theorem watchContact_of_fifth (hs : t.rct.state = .docked) (h : f.contact = false) (hc : 4 ≤ t.dau.contactCount) :
    watchContact f t = raise .dockLost (.dockCode t.tbs.dock.code) { t with
      rct := { t.rct with state := .hold, pendingStep := false }
      rfx := { t.rfx with phase := .none, suspects := noSuspects }
      dau := idleDock } := by
  rw [← changeRun_hold_of_docking (by rw [hs]; rfl)]
  exact (if_neg (by simp [h])).trans (if_pos (by omega))

end

/-- Settles O34. -/
theorem homingHandsOverAndDockedWatches : Obligations.HomingHandsOverAndDockedWatches := by
  refine ⟨fun f t hs => ?_, fun f t hs => ?_, fun f t => dockFrame_of_other, fun f s hwf hset hs => ?_⟩
  · intro dx dy seen near
    have hnear : withinRadius t = true ↔ near := by
      unfold withinRadius near
      simp only [Bool.or_eq_true, Bool.not_eq_true', Bool.and_eq_true, beq_iff_eq, decide_eq_true_iff]
      exact .rfl
    have hboth : (centreSeen t f && withinRadius t) = true ↔ seen ∧ near := by rw [Bool.and_eq_true, centreSeen_iff, hnear]
    rw [dockFrame_of_homing hs]
    exact ⟨fun h1 h2 => (if_pos (hboth.mpr ⟨h1, h2⟩)).trans (handOver_eq t), fun h => if_neg (mt hboth.mp h)⟩
  · rw [dockFrame_of_docked hs]
    exact ⟨watchContact_of_contact, watchContact_of_fewer, watchContact_of_fifth hs⟩
  · exact exec_senseFrame_of_settled hwf hset (by rcases hs with h | h <;> simp [h]) (by rcases hs with h | h <;> simp [h])

/-! ## APPROACH: observations, contacts and the search turn (R144, R148, R150) -/

section
variable {f : SenseFrame} {t : State}

theorem approachFrame_of_track (h : t.dau.phase = .track) :
    approachFrame f t = countContact f (observeTrack (seenSector t f) t) := by
  simp only [approachFrame, h, observation_eq]

theorem approachFrame_of_search (h : t.dau.phase = .search) : approachFrame f t = searchFrame f t := by
  simp only [approachFrame, h]

theorem approachFrame_of_contact (h : t.dau.phase = .contact) :
    approachFrame f t = judgeContact f (observeOnly (seenSector t f) t) := by
  simp only [approachFrame, h, observation_eq]

theorem approachFrame_of_bump (h : t.dau.phase = .bumpHalt ∨ t.dau.phase = .bumpReverse) :
    approachFrame f t = observeOnly (seenSector t f) t := by
  rcases h with h | h <;> simp only [approachFrame, h, observation_eq]

theorem observeTrack_eq (o : Option Sector) (t : State) : observeTrack o t = withDock { t.dau with
    lastSector := if o = none then t.dau.lastSector else o
    beaconTimer := if o = none then t.dau.beaconTimer else some t.pot.timeCount } t := by
  cases o <;> rfl

theorem observeOnly_eq (o : Option Sector) (t : State) : observeOnly o t = withDock { t.dau with
    lastSector := if o = none then t.dau.lastSector else o } t := by
  cases o <;> rfl

theorem countContact_of_fewer (h : (if f.contact then t.dau.contactCount + 1 else 0) < 5) : countContact f t = withDock
    { t.dau with contactCount := if f.contact then t.dau.contactCount + 1 else 0 } t := by
  unfold countContact
  cases hc : f.contact with
  | false => rfl
  | true =>
    rw [hc, if_pos rfl] at h
    exact if_neg (Nat.not_le.mpr h)

theorem countContact_of_fifth (hc : f.contact = true) (h : 4 ≤ t.dau.contactCount) : countContact f t = judgeContact f (withDock
    { t.dau with phase := .contact, beaconTimer := none, searchTurn := 0, contactCount := 5, idWait := 0 } t) :=
  (if_neg (by simp [hc])).trans (if_pos (by omega))

theorem searchFrame_of_seen {x : Sector} (h : seenSector t f = some x) : searchFrame f t = withDock
    { t.dau with phase := .track, lastSector := some x, beaconTimer := some t.pot.timeCount, searchTurn := 0 } t := by
  simp only [searchFrame, observation_eq, h]

theorem searchFrame_of_fewer (hp : t.dau.phase = .search) (h : seenSector t f = none)
    (hc : (if f.contact then t.dau.contactCount + 1 else 0) < 5) : searchFrame f t = searchTurn f.yaw (withDock
      { t.dau with contactCount := if f.contact then t.dau.contactCount + 1 else 0 } t) := by
  simp only [searchFrame, observation_eq, h, countContact_of_fewer hc]
  exact if_pos hp

theorem failApproach_withDock (r : DockFailure) (d : DockUnit) (h : t.rct.state = .approach) :
    failApproach r (withDock d t) = raise .dockFail (.dockFailure r) { t with
      rct := { t.rct with state := .hold, pendingStep := false }
      rfx := { t.rfx with phase := .none, suspects := noSuspects }
      dau := idleDock } := failApproach_eq (t := withDock d t) r h

end

/-- Settles O35. -/
theorem approachFollowsTheBeacon : Obligations.ApproachFollowsTheBeacon := by
  refine ⟨fun f t hs => ?_, fun f s hwf hset hs => exec_senseFrame_of_settled hwf hset (by simp [hs]) (by simp [hs])⟩
  intro sector count sum
  rw [dockFrame_of_approach hs]
  refine ⟨fun hp hc => ?_, fun hp hseen => ?_, fun hp hnone hc => ?_, fun hp => ?_⟩
  · rw [approachFrame_of_track hp, observeTrack_eq]
    exact countContact_of_fewer (t := withDock _ t) hc
  · obtain ⟨x, hx⟩ := Option.ne_none_iff_exists'.mp hseen
    rw [approachFrame_of_search hp, searchFrame_of_seen hx, hx]
    rfl
  · rw [approachFrame_of_search hp, searchFrame_of_fewer hp hnone hc]
    exact ⟨fun hsum => if_neg (Nat.not_le.mpr hsum),
      fun hsum => (if_pos hsum).trans (failApproach_withDock (t := withDock _ t) .noBeacon _ hs)⟩
  · rw [approachFrame_of_bump hp, observeOnly_eq]
    rfl

/-! ## CONTACT and the dock snap (R34, R151, R152) -/

section
variable {f : SenseFrame} {t : State}

/-- The pose record of a snap to the dock, with the level that it leaves (R34). -/
def snappedPose (level : Nat) (t : State) : PoseTracker := { t.pot with
  pose := { t.pot.pose with level := level, x := t.tbs.dock.x * 16, y := t.tbs.dock.y * 16, heading := t.tbs.dock.heading } }

/-- DOCKED on a state that the snap has left, with the run and reflex records of the state before it (R152). -/
def dockedOn (t u : State) : State := raise .docked (.dockCode t.tbs.dock.code) { u with
  pot := { u.pot with pose := { u.pot.pose with valid := true }, history := [] }
  rct := { t.rct with state := .docked, pendingStep := false }
  rfx := { t.rfx with phase := .none, suspects := noSuspects }
  dau := idleDock }

/-- Docking, given the state that the level's part of the snap leaves. -/
theorem dock_of_snap {u : State} (hs : t.rct.state = .approach)
    (hu : snapLevel t.tbs.dock.level { t with pot := snappedPose t.pot.pose.level t } = u)
    (hrct : u.rct = t.rct) (hrfx : u.rfx = t.rfx) (htbs : u.tbs = t.tbs) : dock t = dockedOn t u := by
  have hsnap : dockSnap t = emptyHistory (withPose { u.pot.pose with valid := true } u) := by
    rw [← hu]
    rfl
  have hstate : (emptyHistory (withPose { u.pot.pose with valid := true } u)).rct.state = .approach := by rw [← hs, ← hrct]; rfl
  have hdock : dock t = raise .docked (.dockCode u.tbs.dock.code)
      (changeRun .docked (emptyHistory (withPose { u.pot.pose with valid := true } u))) := by
    have hsame : (dockSnap t).tbs = u.tbs := by
      rw [hsnap]
      rfl
    rw [← hsnap, ← hsame]
    rfl
  rw [hdock, changeRun_of_still rfl (by simp), hstate, htbs]
  unfold dockedOn
  rw [← hrct, ← hrfx]
  rfl

theorem dock_of_same_level (hs : t.rct.state = .approach) (h : t.tbs.dock.level = t.pot.pose.level) :
    dock t = dockedOn t { t with pot := snappedPose t.tbs.dock.level t } := by
  rw [h]
  exact dock_of_snap hs (if_pos h) rfl rfl rfl

/-- Docking on another level with no slot MARKED or SENT: the window is emptied (R34, R57). -/
theorem dock_of_free (hs : t.rct.state = .approach) (h : t.tbs.dock.level ≠ t.pot.pose.level) (hfree : ¬t.twn.holdsMarks = true) :
    dock t = dockedOn t { t with
      pot := snappedPose t.tbs.dock.level t
      twn := { slots := Vector.replicate 16 .empty, recency := [], unsolicited := t.twn.unsolicited }
      pli := { t.pli with requests := [] } } :=
  dock_of_snap hs ((if_neg h).trans (if_neg hfree)) rfl rfl rfl

theorem dock_of_held (hs : t.rct.state = .approach) (h : t.tbs.dock.level ≠ t.pot.pose.level) (hheld : t.twn.holdsMarks = true) :
    dock t = dockedOn t (raise .dockFail (.dockFailure .levelHeld) { t with pot := snappedPose t.pot.pose.level t }) :=
  dock_of_snap hs ((if_neg h).trans (if_pos hheld)) rfl rfl rfl

theorem judgeContact_of_absent (h : f.contact = false) : judgeContact f t = withDock
    { t.dau with phase := .track, beaconTimer := some t.pot.timeCount, contactCount := 0, idWait := 0 } t :=
  if_pos (by simp [h])

theorem judgeContact_of_id {id : Nat} (h : f.contact = true) (hid : f.dockId = some id) :
    judgeContact f t = if id = t.tbs.dock.code then dock t else failApproach .wrongDock t := by
  simp [judgeContact, h, hid]

theorem judgeContact_of_no_id (h : f.contact = true) (hid : f.dockId = none) : judgeContact f t =
    if 10 ≤ t.dau.idWait + 1 then failApproach .noId (withDock { t.dau with idWait := t.dau.idWait + 1 } t)
    else withDock { t.dau with idWait := t.dau.idWait + 1 } t := by
  simp [judgeContact, h, hid]

end

theorem searchFrame_of_fifth {f : SenseFrame} {t : State} (h : seenSector t f = none) (hc : f.contact = true)
    (hfour : 4 ≤ t.dau.contactCount) : searchFrame f t = judgeContact f (withDock
      { t.dau with phase := .contact, beaconTimer := none, searchTurn := 0, contactCount := 5, idWait := 0 } t) := by
  simp only [searchFrame, observation_eq, h, countContact_of_fifth hc hfour]
  exact if_neg (judgeContact_search rfl)

/-- Settles O36. -/
theorem contactIsJudgedByDockId : Obligations.ContactIsJudgedByDockId := by
  refine ⟨fun f t hs => ?_, fun f s hwf hset hs => exec_senseFrame_of_settled hwf hset (by simp [hs]) (by simp [hs])⟩
  intro d sector fifth wait seen judged failed held docked snapped
  refine ⟨fun hp hc => ?_, fun hcase => ?_⟩
  · rw [dockFrame_of_approach hs, approachFrame_of_contact hp, observeOnly_eq, judgeContact_of_absent hc]
    rfl
  obtain ⟨hcontact, hjudge, hwait⟩ : f.contact = true ∧ dockFrame f t = judgeContact f (withDock judged t) ∧
      wait = judged.idWait + 1 := by
    rw [dockFrame_of_approach hs]
    rcases hcase with ⟨hp, hc⟩ | ⟨hp | ⟨hp, hnone⟩, hfour, hc⟩
    · refine ⟨hc, ?_, ?_⟩
      · rw [approachFrame_of_contact hp, observeOnly_eq, show judged = seen from if_pos hp]
      · rw [show judged = seen from if_pos hp]
        exact if_pos hp
    · have hne : ¬t.dau.phase = .contact := by simp [hp]
      refine ⟨hc, ?_, ?_⟩
      · rw [approachFrame_of_track hp, observeTrack_eq, show judged = _ from if_neg hne]
        exact countContact_of_fifth (t := withDock _ t) hc hfour
      · rw [show judged = _ from if_neg hne]
        exact if_neg hne
    · have hne : ¬t.dau.phase = .contact := by simp [hp]
      refine ⟨hc, ?_, ?_⟩
      · have hseen : seen = t.dau := by
          unfold seen
          rw [if_pos hnone]
        rw [approachFrame_of_search hp, searchFrame_of_fifth hnone hc hfour, show judged = _ from if_neg hne, hseen]
      · rw [show judged = _ from if_neg hne]
        exact if_neg hne
  rw [hjudge, hwait]
  refine ⟨fun id hid hne => ?_, fun hid hten => ?_, fun hid hten => ?_, fun hid => ?_⟩
  · rw [judgeContact_of_id hcontact hid]
    exact (if_neg hne).trans (failApproach_withDock .wrongDock _ hs)
  · rw [judgeContact_of_no_id hcontact hid]
    exact (if_pos hten).trans (failApproach_withDock (t := withDock judged t) .noId _ hs)
  · rw [judgeContact_of_no_id hcontact hid]
    exact if_neg (Nat.not_le.mpr hten)
  · rw [judgeContact_of_id hcontact hid, show (if d.code = (withDock judged t).tbs.dock.code then _ else _) = _ from if_pos rfl]
    exact ⟨dock_of_same_level (t := withDock judged t) hs,
      fun hlevel hheld => dock_of_free (t := withDock judged t) hs hlevel (mt TileWindow.holdsMarks_iff.mp hheld),
      fun hlevel hheld => dock_of_held (t := withDock judged t) hs hlevel (TileWindow.holdsMarks_iff.mpr hheld)⟩

/-! ## Bumpers in APPROACH (R125, R139, R149) -/

section
variable {f : SenseFrame} {s : State} {side : Side}

/-- A bumper in APPROACH either fails the approach, which closes the suspicions, or leaves it and them as they were. -/
theorem approachBump_state (side : Side) (contact : Bool) (hs : s.rct.state = .approach) :
    (approachBump side contact s).mgt = s.mgt ∧
      ((approachBump side contact s).rct.state = .hold ∧ (approachBump side contact s).rfx.suspects = noSuspects ∨
        (approachBump side contact s).rct.state = .approach ∧ (approachBump side contact s).rfx.suspects = s.rfx.suspects) := by
  cases contact with
  | true => exact ⟨rfl, .inr ⟨hs, rfl⟩⟩
  | false =>
    rcases Nat.lt_or_ge s.rfx.approachBumps 2 with h | h
    · rw [approachBump_of_fewer side h]
      exact ⟨rfl, .inr ⟨hs, rfl⟩⟩
    · rw [approachBump_of_third side hs h]
      exact ⟨rfl, .inl ⟨rfl, rfl⟩⟩

theorem drops_cases (f : SenseFrame) (a : Armed) : drops f a = [] ∨ ∃ x, drops f a = [.drop x] := by
  unfold drops
  split
  · exact .inr ⟨_, rfl⟩
  split
  · exact .inr ⟨_, rfl⟩
  · exact .inl rfl

theorem bumps_cases (f : SenseFrame) (a : Armed) : bumps f a = [] ∨ ∃ side, bumps f a = [.bump side] := by
  unfold bumps
  dsimp only
  split
  · exact .inr ⟨_, rfl⟩
  split
  · exact .inr ⟨_, rfl⟩
  split
  · exact .inr ⟨_, rfl⟩
  · exact .inl rfl

/-- Behind a bumper that fires first, cliff sensors alone fire (R125). -/
theorem ne_bump_of_firing_bump {rest : List Hazard} (hf : firing s f = .bump side :: rest) :
    ∀ h ∈ rest, ∀ z, h ≠ .bump z := by
  rw [firing_eq] at hf
  rcases drops_cases f s.rfx.armed with hd | ⟨x, hd⟩ <;> rw [hd] at hf
  · rcases bumps_cases f s.rfx.armed with hb | ⟨w, hb⟩ <;> rw [hb] at hf
    · have hmem : Hazard.bump side ∈ ([CliffSensor.fl, .fr, .sl, .sr].filter (lowAndArmed f s)).map Hazard.cliff := by
        rw [List.nil_append, List.nil_append] at hf
        exact hf ▸ List.mem_cons_self
      obtain ⟨x, -, hx⟩ := List.mem_map.mp hmem
      cases hx
    · intro h hmem z hz
      rw [← (List.cons.inj hf).2] at hmem
      obtain ⟨x, -, hx⟩ := List.mem_map.mp hmem
      rw [hz] at hx
      cases hx
  · cases hf

theorem frameEnd_of_hold {t : State} (rest : List Hazard) (hs : t.rct.state = .hold) (hnone : t.rfx.suspects = noSuspects) :
    frameEnd f (rest.foldl (senseFire f) (t, none)) = rest.foldl eventAlone t := by
  have hmap := eventsAlone_mapOnly rest t
  rw [senseFires_of_idle rest (.inr (.inl hs)), frameEnd_of_kept (keptSuspicions_of_none (by rw [hmap.rfx]; exact hnone))]
  refine dockFrame_of_other ?_ ?_ ?_ <;> rw [hmap.rct, hs] <;> simp

end

/-- Settles O37. -/
theorem approachBumpsHaltOrFail : Obligations.ApproachBumpsHaltOrFail := by
  constructor
  · intro side t hs halted count
    refine ⟨rfl, fun hcount => ?_, fun hcount => ?_⟩
    · rw [approachBump_of_fewer side (show t.rfx.approachBumps < 2 by omega)]
      rfl
    · rw [approachBump_of_third side hs (show 2 ≤ t.rfx.approachBumps by omega)]
      rfl
  · intro f side rest s hwf hs hdrop hf b
    have hexec : exec (.senseFrame f) s = .next (arbitrate (frameEnd f (rest.foldl (senseFire f) (b, none)))) := by
      rw [exec_senseFrame_of_fires hwf (entryState_mayFire (.inr (.inr hs))) hdrop, hf, List.foldl_cons,
        senseFire_approachBump (r := (sensed f s, none)) side ⟨hs, rfl⟩]
    obtain ⟨hmgt, hstate⟩ : b.mgt = s.mgt ∧ _ := approachBump_state (s := sensed f s) side f.contact hs
    obtain ⟨htbs, hpot⟩ : b.tbs = (sensed f s).tbs ∧ b.pot = (sensed f s).pot :=
      approachBump_keeps (s := sensed f s) side f.contact hs
    rw [hexec]
    refine ⟨fun hold => ?_, fun happroach => ⟨?_, ?_⟩⟩
    · rcases hstate with ⟨-, hnone⟩ | ⟨h, -⟩
      · rw [frameEnd_of_hold rest hold hnone]
      · cases hold.symm.trans h
    · rintro rfl hkept
      rcases hstate with ⟨h, -⟩ | ⟨-, hsame⟩
      · cases happroach.symm.trans h
      · rw [List.foldl_nil, frameEnd_of_kept ((keptSuspicions_sensed hkept).congr hsame htbs (by rw [hpot]))]
    · rintro h more rfl
      have hcount : segmentCount b = segmentCount s := by
        unfold segmentCount
        rw [hmgt]
      rw [List.foldl_cons, senseFire_of_approach happroach (ne_bump_of_firing_bump hf h List.mem_cons_self),
        frameEnd_of_entered h more (.inr (.inr happroach)), hcount]

end Sys2Proof.Machine
end

section
/-! The lines' bytes: fields, envelopes and receivers, each encoder beside its decoder (R168, R179 to R181). -/

namespace Sys2Proof

open Sys2Proof.Machine (word16 signed16 eventKindOf eventNumber)

/-! ## Numbers in bytes (R181) -/

section
variable {n : Nat} {v : Int}

/-- The more significant byte of a 16-bit number. -/
def highByte (w : BitVec 16) : Byte := (w >>> 8).setWidth 8

/-- The less significant byte of a 16-bit number. -/
def lowByte (w : BitVec 16) : Byte := w.setWidth 8

theorem bytes16_eq (w : BitVec 16) : bytes16 w = [highByte w, lowByte w] := rfl

theorem toNat_byteOf (h : fits8 n = true) : (byteOf n).toNat = n := by
  have hn : n ≤ 255 := of_decide_eq_true h
  exact (BitVec.toNat_ofNat n 8).trans (Nat.mod_eq_of_lt (by omega))

theorem high_append_low (w : BitVec 16) : highByte w ++ lowByte w = w := by
  ext i hi
  rw [BitVec.getElem_append]
  split
  · simp [lowByte, BitVec.getLsbD_eq_getElem hi]
  · simp [highByte, show 8 + (i - 8) = i by omega, BitVec.getLsbD_eq_getElem hi]

theorem word16_eq_append (hi lo : Byte) : word16 hi lo = (hi ++ lo : BitVec 16).toNat := by
  rw [BitVec.toNat_append, Nat.shiftLeft_eq, word16, Nat.mul_comm, ← Nat.two_pow_add_eq_or_of_lt lo.isLt, Nat.mul_comm]

theorem word16_bytes (w : BitVec 16) : word16 (highByte w) (lowByte w) = w.toNat := by
  rw [word16_eq_append, high_append_low]

theorem signed16_bytes (w : BitVec 16) : signed16 (highByte w) (lowByte w) = w.toInt := congrArg BitVec.toInt (high_append_low w)

theorem word16_of_fits (h : fits16 n = true) : word16 (highByte (BitVec.ofNat 16 n)) (lowByte (BitVec.ofNat 16 n)) = n := by
  have hn : n ≤ 65535 := of_decide_eq_true h
  rw [word16_bytes, BitVec.toNat_ofNat, Nat.mod_eq_of_lt (by omega)]

theorem signed16_of_fits (h : fitsSigned16 v = true) :
    signed16 (highByte (BitVec.ofInt 16 v)) (lowByte (BitVec.ofInt 16 v)) = v := by
  obtain ⟨hlo, hhi⟩ : -32768 ≤ v ∧ v ≤ 32767 := by simpa [fitsSigned16] using h
  rw [signed16_bytes, BitVec.toInt_ofInt]
  exact Int.bmod_eq_of_le (by omega) (by omega)

end

/-! ## Lists of fields (R180) -/

theorem words_flatMap (ns : List Nat) (h : ns.all fits16 = true) : words (ns.flatMap wordBytes) = some ns := by
  induction ns with
  | nil => rfl
  | cons n rest ih =>
    obtain ⟨hn, hrest⟩ := Bool.and_eq_true_iff.mp h
    rw [List.flatMap_cons]
    show (words (rest.flatMap wordBytes)).map
      (word16 (highByte (BitVec.ofNat 16 n)) (lowByte (BitVec.ofNat 16 n)) :: ·) = _
    rw [ih hrest, word16_of_fits hn]
    rfl

theorem signedWords_flatMap (vs : List Int) (h : vs.all fitsSigned16 = true) : signedWords (vs.flatMap signedBytes) = some vs := by
  induction vs with
  | nil => rfl
  | cons v rest ih =>
    obtain ⟨hv, hrest⟩ := Bool.and_eq_true_iff.mp h
    rw [List.flatMap_cons]
    show (signedWords (rest.flatMap signedBytes)).map
      (signed16 (highByte (BitVec.ofInt 16 v)) (lowByte (BitVec.ofInt 16 v)) :: ·) = _
    rw [ih hrest, signed16_of_fits hv]
    rfl

theorem responseEntries_flatMap (es : List ResponseEntry) (h : es.all ResponseEntry.wellFormed = true) :
    responseEntries (es.flatMap responseBytes) = some es := by
  induction es with
  | nil => rfl
  | cons e rest ih =>
    obtain ⟨he, hrest⟩ := Bool.and_eq_true_iff.mp h
    simp only [ResponseEntry.wellFormed, Bool.and_eq_true] at he
    obtain ⟨⟨⟨⟨⟨hrecord, hblocking⟩, hedge⟩, hcap⟩, hbrush⟩, htrust⟩ := he
    rw [List.flatMap_cons]
    show (responseEntries (rest.flatMap responseBytes)).map
      ({ record := (byteOf e.record).toNat, blocking := (byteOf e.blocking).toNat, edge := (byteOf e.edge).toNat
         floorCap := word16 (highByte (BitVec.ofNat 16 e.floorCap)) (lowByte (BitVec.ofNat 16 e.floorCap))
         brush := (byteOf e.brush).toNat, trust := (byteOf e.trust).toNat } :: ·) = _
    rw [ih hrest, word16_of_fits hcap, toNat_byteOf hrecord, toNat_byteOf hblocking, toNat_byteOf hedge, toNat_byteOf hbrush,
      toNat_byteOf htrust]
    rfl

theorem learnEntries_flatMap (es : List LearnEntry) (h : es.all LearnEntry.wellFormed = true) :
    learnEntries (es.flatMap fun e => [byteOf e.kind, byteOf e.cls]) = some es := by
  induction es with
  | nil => rfl
  | cons e rest ih =>
    obtain ⟨he, hrest⟩ := Bool.and_eq_true_iff.mp h
    obtain ⟨hkind, hcls⟩ := Bool.and_eq_true_iff.mp he
    rw [List.flatMap_cons]
    show (learnEntries (rest.flatMap _)).map (_ :: ·) = _
    rw [ih hrest, toNat_byteOf hkind, toNat_byteOf hcls]
    rfl

theorem eventKindOf_kindByte (k : EventKind) : eventKindOf (kindByte k).toNat = some k := by
  cases k <;> rfl

theorem kindsOf_kindBytes (ks : List EventKind) : kindsOf (ks.map kindByte) = some ks := by
  induction ks with
  | nil => rfl
  | cons k rest ih =>
    rw [List.map_cons, kindsOf, eventKindOf_kindByte, ih]

/-! ## Cells (R181) -/

theorem length_packCells (cells : Cells) : (packCells cells).length = 128 := List.length_ofFn

theorem packedClass_packCells (cells : Cells) (i : Fin 256) : packedClass (packCells cells) i = cells[i] := by
  have hhalf : i.val / 2 < 128 := by omega
  have hlow := cells[2 * (i.val / 2)].isLt
  have hhigh := cells[2 * (i.val / 2) + 1].isLt
  have hbyte : ((packCells cells).getD (i / 2) 0).toNat =
      cells[2 * (i.val / 2)].val + 16 * cells[2 * (i.val / 2) + 1].val := by
    rw [packCells, List.getD_eq_getElem _ _ (by rw [List.length_ofFn]; exact hhalf), List.getElem_ofFn, BitVec.toNat_ofNat,
      Nat.mod_eq_of_lt (by dsimp only; omega)]
  have hcell (j : Nat) (hj : j < 256) (h : j = i.val) : cells[j].val = cells[i].val := by
    subst h
    rfl
  apply Fin.ext
  unfold packedClass
  simp only [hbyte, Fin.ofNat]
  rcases Nat.mod_two_eq_zero_or_one i.val with h | h
  · rw [if_pos h, ← hcell (2 * (i.val / 2)) (by omega) (by omega)]
    omega
  · rw [if_neg (by omega), ← hcell (2 * (i.val / 2) + 1) (by omega) (by omega)]
    omega

theorem unpackCells_packCells (cells : Cells) : unpackCells (packCells cells) = cells := by
  ext i hi
  simp only [unpackCells, Vector.getElem_ofFn]
  exact congrArg Fin.val (packedClass_packCells cells ⟨i, hi⟩)

/-! ## Optional fields (R181) -/

/-- The two flags of a byte of presence or stall bits are read as they were written. -/
theorem two_bits : ∀ a b : Bool,
    (byteOf (bitAt a 0 + bitAt b 1)).getLsbD 0 = a ∧ (byteOf (bitAt a 0 + bitAt b 1)).getLsbD 1 = b := by
  decide

theorem segmentOptions_encode (brush tag : Option Nat) (hb : optionally fits8 brush = true) (ht : optionally fits16 tag = true) :
    segmentOptions (byteOf (bitAt brush.isSome 0 + bitAt tag.isSome 1)) ((brush.map byteOf).toList ++ tag.elim [] wordBytes) =
      some (brush, tag) := by
  obtain ⟨hbrush, htag⟩ := two_bits brush.isSome tag.isSome
  unfold segmentOptions
  rw [hbrush, htag]
  cases brush with
  | none =>
    cases tag with
    | none => rfl
    | some t =>
      show some (none, some (word16 (highByte (BitVec.ofNat 16 t)) (lowByte (BitVec.ofNat 16 t)))) = _
      rw [word16_of_fits ht]
  | some b =>
    cases tag with
    | none =>
      show some (some (byteOf b).toNat, none) = _
      rw [toNat_byteOf hb]
    | some t =>
      show some (some (byteOf b).toNat, some (word16 (highByte (BitVec.ofNat 16 t)) (lowByte (BitVec.ofNat 16 t)))) = _
      rw [toNat_byteOf hb, word16_of_fits ht]

/-- The seven flags of a contacts byte are read as they were written. -/
theorem contacts_bits : ∀ a b c d e f g : Bool,
    let w := byteOf (bitAt a 0 + bitAt b 1 + bitAt c 2 + bitAt d 3 + bitAt e 4 + bitAt f 5 + bitAt g 6)
    w.getLsbD 0 = a ∧ w.getLsbD 1 = b ∧ w.getLsbD 2 = c ∧ w.getLsbD 3 = d ∧ w.getLsbD 4 = e ∧ w.getLsbD 5 = f ∧
      w.getLsbD 6 = g := by
  decide

theorem beacon_bits : ∀ (l c r : Bool) (code : Fin 16),
    beaconOf (byteOf (bitAt l 7 + bitAt c 6 + bitAt r 5 + code.val)) = { left := l, centre := c, right := r, code := code.val } := by
  decide

theorem beaconOf_beaconByte (b : Beacon) (h : b.code ≤ 15) : beaconOf (beaconByte b) = b :=
  beacon_bits b.left b.centre b.right ⟨b.code, by omega⟩

/-! ## Bodies (R180, R181) -/

theorem length_flatMap_of_length {α : Type} {f : α → List Byte} {k : Nat} (h : ∀ a, (f a).length = k) (xs : List α) :
    (xs.flatMap f).length = xs.length * k := by
  induction xs with
  | nil => rw [List.flatMap_nil, List.length_nil, List.length_nil, Nat.zero_mul]
  | cons x rest ih => rw [List.flatMap_cons, List.length_append, h, ih, List.length_cons, Nat.succ_mul, Nat.add_comm]

theorem limitKindOf_limitCode (k : LimitKind) : limitKindOf (byteOf (limitCode k)) = some k := by cases k <;> rfl

theorem modeKindOf_modeCode (k : ModeKind) : modeKindOf (byteOf (modeCode k)) = some k := by cases k <;> rfl

theorem clearModeOf_clearModeCode (m : ClearMode) : clearModeOf (byteOf (clearModeCode m)) = some m := by cases m <;> rfl

theorem brushStateOf_brushCode (b : BrushState) : brushStateOf (byteOf (brushCode b)) = some b := by cases b <;> rfl

theorem keyOf_keyBytes {k : TileKey} (h : k.onMap = true) : keyOf (byteOf k.level) (byteOf k.col) (byteOf k.row) = k := by
  simp only [TileKey.onMap, Bool.and_eq_true, decide_eq_true_iff] at h
  obtain ⟨⟨hlevel, hcol⟩, hrow⟩ := h
  have hbyte {n : Nat} (hn : n ≤ 63) : (byteOf n).toNat = n := toNat_byteOf (decide_eq_true (by omega))
  rw [keyOf, hbyte (by omega), hbyte hcol, hbyte hrow]

/-- A body decodes to a command, and is short enough for a frame (R179). -/
def Carries (decode : List Byte → Option Instr) (body : List Byte) (i : Instr) : Prop :=
  decode body = some i ∧ body.length ≤ 250

theorem segmentBody_encode (vL vR : Int) (kind : LimitKind) (limit : Nat) (brush tag : Option Nat)
    (h : (Instr.segment vL vR kind limit brush tag).wellFormed = true) :
    Carries segmentBody (signedBytes vL ++ signedBytes vR ++ [byteOf (limitCode kind)] ++ wordBytes limit
      ++ [byteOf (bitAt brush.isSome 0 + bitAt tag.isSome 1)] ++ (brush.map byteOf).toList ++ (tag.elim [] wordBytes))
      (.segment vL vR kind limit brush tag) := by
  simp only [Instr.wellFormed, Bool.and_eq_true] at h
  obtain ⟨⟨⟨⟨hL, hR⟩, hlimit⟩, hbrush⟩, htag⟩ := h
  constructor
  · rw [List.append_assoc _ (brush.map byteOf).toList]
    simp only [signedBytes, wordBytes, bytes16_eq, List.cons_append, List.nil_append, segmentBody, limitKindOf_limitCode,
      segmentOptions_encode brush tag hbrush htag, signed16_of_fits hL, signed16_of_fits hR, word16_of_fits hlimit]
  · have hone : (brush.map byteOf).toList.length ≤ 1 := by cases brush <;> simp
    have htwo : (tag.elim [] wordBytes).length ≤ 2 := by cases tag <;> simp [wordBytes, bytes16]
    simp only [List.length_append, signedBytes, wordBytes, bytes16, List.length_cons, List.length_nil]
    omega

theorem modeBody_encode (kind : ModeKind) (factor : Nat) (h : fits8 factor = true) :
    Carries modeBody [byteOf (modeCode kind), byteOf factor] (.mode kind factor) := by
  refine ⟨?_, by simp⟩
  rw [modeBody, modeKindOf_modeCode, toNat_byteOf h]
  rfl

theorem tileBody_full (key : TileKey) (generation : Nat) (cells : Cells) (hk : key.onMap = true) (hg : fits8 generation = true) :
    Carries tileBody (keyBytes key ++ [byteOf generation, 0] ++ packCells cells) (.tile key generation (.full cells)) := by
  constructor
  · simp only [keyBytes, List.cons_append, List.nil_append, tileBody, length_packCells, keyOf_keyBytes hk, toNat_byteOf hg,
      unpackCells_packCells]
    rfl
  · simp only [keyBytes, List.length_append, length_packCells, List.length_cons, List.length_nil]
    omega

theorem tileBody_uniform (key : TileKey) (generation c : Nat) (hk : key.onMap = true) (hg : fits8 generation = true)
    (hc : c ≤ 15) : Carries tileBody (keyBytes key ++ [byteOf generation, 1, byteOf c]) (.tile key generation (.uniform c)) := by
  refine ⟨?_, by simp [keyBytes]⟩
  show some (Instr.tile (keyOf (byteOf key.level) (byteOf key.col) (byteOf key.row)) (byteOf generation).toNat
    (.uniform (byteOf c).toNat)) = _
  rw [keyOf_keyBytes hk, toNat_byteOf hg, toNat_byteOf (decide_eq_true (by omega))]

theorem tileDropBody_encode (key : TileKey) (h : key.onMap = true) : Carries tileDropBody (keyBytes key) (.tileDrop key) := by
  refine ⟨?_, by simp [keyBytes]⟩
  rw [keyBytes, tileDropBody, keyOf_keyBytes h]

theorem setPoseBody_encode (level x y heading : Nat) (h : (Instr.setPose level x y heading).wellFormed = true) :
    Carries setPoseBody (byteOf level :: (wordBytes x ++ wordBytes y ++ wordBytes heading)) (.setPose level x y heading) := by
  simp only [Instr.wellFormed, Bool.and_eq_true] at h
  obtain ⟨⟨⟨hlevel, hx⟩, hy⟩, hheading⟩ := h
  refine ⟨?_, by simp [wordBytes, bytes16]⟩
  simp only [wordBytes, bytes16_eq, List.cons_append, List.nil_append, setPoseBody, toNat_byteOf hlevel, word16_of_fits hx,
    word16_of_fits hy, word16_of_fits hheading]

theorem loadBody_response (es : List ResponseEntry) (h : (Instr.loadResponse es).wellFormed = true) :
    Carries loadBody (0 :: es.flatMap responseBytes) (.loadResponse es) := by
  simp only [Instr.wellFormed, Bool.and_eq_true, decide_eq_true_iff] at h
  obtain ⟨⟨-, hlength⟩, hall⟩ := h
  constructor
  · show (responseEntries (es.flatMap responseBytes)).map Instr.loadResponse = _
    rw [responseEntries_flatMap es hall]
    rfl
  · rw [List.length_cons, length_flatMap_of_length (k := 7) fun _ => rfl]
    omega

theorem loadBody_learn (es : List LearnEntry) (h : (Instr.loadLearn es).wellFormed = true) :
    Carries loadBody (1 :: es.flatMap fun e => [byteOf e.kind, byteOf e.cls]) (.loadLearn es) := by
  simp only [Instr.wellFormed, Bool.and_eq_true, decide_eq_true_iff] at h
  obtain ⟨⟨-, hlength⟩, hall⟩ := h
  constructor
  · show (learnEntries (es.flatMap fun e => [byteOf e.kind, byteOf e.cls])).map Instr.loadLearn = _
    rw [learnEntries_flatMap es hall]
    rfl
  · rw [List.length_cons, length_flatMap_of_length (k := 2) fun _ => rfl]
    omega

theorem loadBody_braking (limits : List Nat) (vclear : Nat) (h : (Instr.loadBraking limits vclear).wellFormed = true) :
    Carries loadBody (2 :: (limits.flatMap wordBytes ++ wordBytes vclear)) (.loadBraking limits vclear) := by
  simp only [Instr.wellFormed, Bool.and_eq_true, beq_iff_eq] at h
  obtain ⟨⟨hlength, hall⟩, hclear⟩ := h
  have hbytes : limits.flatMap wordBytes ++ wordBytes vclear = (limits ++ [vclear]).flatMap wordBytes := by
    rw [List.flatMap_append, List.flatMap_cons, List.flatMap_nil, List.append_nil]
  have hfits : (limits ++ [vclear]).all fits16 = true := by simp [List.all_append, hall, hclear]
  rw [hbytes]
  constructor
  · show brakingValues (words ((limits ++ [vclear]).flatMap wordBytes)) = _
    rw [words_flatMap _ hfits]
    show (if (limits ++ [vclear]).length = 17 then some (Instr.loadBraking ((limits ++ [vclear]).take 16)
      ((limits ++ [vclear]).getD 16 0)) else none) = _
    rw [if_pos (by simp [hlength]), List.take_left' hlength, List.getD_append_right _ _ _ _ (by omega), hlength]
    rfl
  · rw [List.length_cons, length_flatMap_of_length (k := 2) fun _ => rfl, List.length_append, hlength]
    simp

theorem loadBody_calibration (vs : List Int) (h : (Instr.loadCalibration vs).wellFormed = true) :
    Carries loadBody (3 :: vs.flatMap signedBytes) (.loadCalibration vs) := by
  simp only [Instr.wellFormed, Bool.and_eq_true, beq_iff_eq] at h
  obtain ⟨hlength, hall⟩ := h
  constructor
  · show (signedWords (vs.flatMap signedBytes)).map Instr.loadCalibration = _
    rw [signedWords_flatMap vs hall]
    rfl
  · rw [List.length_cons, length_flatMap_of_length (k := 2) fun _ => rfl]
    omega

theorem loadBody_dock (level x y heading code : Nat) (h : (Instr.loadDock level x y heading code).wellFormed = true) :
    Carries loadBody (4 :: [level, x, y, heading, code].flatMap wordBytes) (.loadDock level x y heading code) := by
  simp only [Instr.wellFormed, Bool.and_eq_true] at h
  obtain ⟨⟨⟨⟨hlevel, hx⟩, hy⟩, hheading⟩, hcode⟩ := h
  constructor
  · show dockValues (words ([level, x, y, heading, code].flatMap wordBytes)) = _
    rw [words_flatMap _ (by simp [hlevel, hx, hy, hheading, hcode])]
    rfl
  · rw [List.length_cons, length_flatMap_of_length (k := 2) fun _ => rfl]
    simp

theorem eventMaskBody_encode (mode : ClearMode) (kinds : List EventKind) (h : kinds.length ≤ 249) :
    Carries eventMaskBody (byteOf (clearModeCode mode) :: kinds.map kindByte) (.eventMask mode kinds) := by
  constructor
  · rw [eventMaskBody, clearModeOf_clearModeCode, kindsOf_kindBytes]
  · rw [List.length_cons, List.length_map]
    omega

theorem eventClear_encode (kinds : List EventKind) (h : kinds.length ≤ 250) :
    Carries (fun body => (kindsOf body).map Instr.eventClear) (kinds.map kindByte) (.eventClear kinds) :=
  ⟨congrArg (Option.map Instr.eventClear) (kindsOf_kindBytes kinds), by rw [List.length_map]; exact h⟩

theorem forceEventBody_encode (kind : EventKind) : Carries forceEventBody [kindByte kind] (.forceEvent kind) :=
  ⟨congrArg (Option.map Instr.forceEvent) (eventKindOf_kindByte kind), by simp⟩

/-- The frame of every command of the Plan Link decodes to it (R180, R181). -/
theorem planCommand_encode {i : Instr} {kind : Byte} {body : List Byte} (hplan : Machine.isPlanFrame i = true)
    (hwf : i.wellFormed = true) (he : encodeBody i = some (kind, body)) : Carries (planCommand kind) body i := by
  cases i with
  | segment vL vR k limit brush tag =>
    cases he
    exact segmentBody_encode vL vR k limit brush tag hwf
  | start =>
    cases he
    exact ⟨rfl, Nat.zero_le _⟩
  | mode k factor =>
    cases he
    exact modeBody_encode k factor hwf
  | tile key generation contents =>
    simp only [Instr.wellFormed, Bool.and_eq_true] at hwf
    obtain ⟨⟨hkey, hgeneration⟩, hcontents⟩ := hwf
    cases contents with
    | full cells =>
      cases he
      exact tileBody_full key generation cells hkey hgeneration
    | uniform c =>
      cases he
      exact tileBody_uniform key generation c hkey hgeneration (of_decide_eq_true hcontents)
  | tileDrop key =>
    cases he
    exact tileDropBody_encode key hwf
  | setPose level x y heading =>
    cases he
    exact setPoseBody_encode level x y heading hwf
  | loadResponse entries =>
    cases he
    exact loadBody_response entries hwf
  | loadLearn entries =>
    cases he
    exact loadBody_learn entries hwf
  | loadBraking limits vclear =>
    cases he
    exact loadBody_braking limits vclear hwf
  | loadCalibration values =>
    cases he
    exact loadBody_calibration values hwf
  | loadDock level x y heading code =>
    cases he
    exact loadBody_dock level x y heading code hwf
  | statusRequest =>
    cases he
    exact ⟨rfl, Nat.zero_le _⟩
  | eventMask mode kinds =>
    cases he
    exact eventMaskBody_encode mode kinds (of_decide_eq_true hwf)
  | eventClear kinds =>
    cases he
    exact eventClear_encode kinds (of_decide_eq_true hwf)
  | forceEvent k =>
    cases he
    exact forceEventBody_encode k
  | restart =>
    cases he
    exact ⟨rfl, Nat.zero_le _⟩
  | _ => cases hplan

/-! ## The Drive Link and the Sense Port (R181) -/

theorem odometryBody_encode (tL tR : Int) (stallLeft stallRight : Bool)
    (h : (Instr.odometryReply tL tR stallLeft stallRight).wellFormed = true) :
    Carries odometryBody (signedBytes tL ++ signedBytes tR ++ [byteOf (bitAt stallLeft 0 + bitAt stallRight 1)])
      (.odometryReply tL tR stallLeft stallRight) := by
  simp only [Instr.wellFormed, Bool.and_eq_true, decide_eq_true_iff] at h
  obtain ⟨⟨hL0, hL1⟩, hR0, hR1⟩ := h
  have hfits {v : Int} (h0 : -2047 ≤ v) (h1 : v ≤ 2047) : fitsSigned16 v = true := by
    simp only [fitsSigned16, Bool.and_eq_true, decide_eq_true_iff]
    omega
  obtain ⟨hleft, hright⟩ := two_bits stallLeft stallRight
  refine ⟨?_, by simp [signedBytes, bytes16]⟩
  simp only [signedBytes, bytes16_eq, List.cons_append, List.nil_append, odometryBody, signed16_of_fits (hfits hL0 hL1),
    signed16_of_fits (hfits hR0 hR1), hleft, hright]

theorem brushStatusBody_encode (b : BrushState) (jam : Bool) :
    Carries brushStatusBody [byteOf (brushCode b), byteOf (bitAt jam 0)] (.brushStatus b jam) := by
  refine ⟨?_, by simp⟩
  rw [brushStatusBody, brushStateOf_brushCode]
  cases jam <;> rfl

theorem senseOptions_encode (f : SenseFrame) (hb : ∀ b, f.beacon = some b → b.code ≤ 15)
    (hd : optionally (· ≤ 15) f.dockId = true) :
    senseOptions (contactsByte f) ((f.beacon.map beaconByte).toList ++ (f.dockId.map byteOf).toList) =
      some (f.beacon, f.dockId) := by
  obtain ⟨-, -, -, -, -, hbeacon, hdock⟩ := contacts_bits f.bumperLeft f.bumperRight f.dropLeft f.dropRight f.contact
    f.beacon.isSome f.dockId.isSome
  unfold senseOptions contactsByte
  rw [hbeacon, hdock]
  have hid {d : Nat} (h : d ≤ 15) : (byteOf d).toNat = d := toNat_byteOf (decide_eq_true (by omega))
  cases hbe : f.beacon with
  | none =>
    cases hde : f.dockId with
    | none => rfl
    | some d =>
      rw [hde] at hd
      show some (none, some (byteOf d).toNat) = _
      rw [hid (of_decide_eq_true hd)]
  | some b =>
    cases hde : f.dockId with
    | none =>
      show some (some (beaconOf (beaconByte b)), none) = _
      rw [beaconOf_beaconByte b (hb b hbe)]
    | some d =>
      rw [hde] at hd
      show some (some (beaconOf (beaconByte b)), some (byteOf d).toNat) = _
      rw [beaconOf_beaconByte b (hb b hbe), hid (of_decide_eq_true hd)]

theorem senseBody_encode (f : SenseFrame) (h : f.wellFormed = true) :
    Carries senseBody ([byteOf f.age, BitVec.ofInt 8 f.yaw, byteOf f.cliffFL, byteOf f.cliffFR, byteOf f.cliffSL,
      byteOf f.cliffSR, contactsByte f] ++ (f.beacon.map beaconByte).toList ++ (f.dockId.map byteOf).toList) (.senseFrame f) := by
  simp only [SenseFrame.wellFormed, Bool.and_eq_true, decide_eq_true_iff] at h
  obtain ⟨⟨⟨⟨⟨⟨⟨⟨hage, hyaw0, hyaw1⟩, hfl⟩, hfr⟩, hsl⟩, hsr⟩, hbeacon⟩, hdock⟩, -⟩ := h
  have hcode (b : Beacon) (hb : f.beacon = some b) : b.code ≤ 15 := by
    rw [hb] at hbeacon
    exact of_decide_eq_true hbeacon
  have hyaw : (BitVec.ofInt 8 f.yaw).toInt = f.yaw := by
    rw [BitVec.toInt_ofInt]
    exact Int.bmod_eq_of_le (by omega) (by omega)
  obtain ⟨hbl, hbr, hdl, hdr, hcontact, -, -⟩ := contacts_bits f.bumperLeft f.bumperRight f.dropLeft f.dropRight f.contact
    f.beacon.isSome f.dockId.isSome
  constructor
  · rw [List.append_assoc]
    simp only [List.cons_append, List.nil_append, senseBody, senseOptions_encode f hcode hdock, toNat_byteOf hage, hyaw,
      toNat_byteOf hfl, toNat_byteOf hfr, toNat_byteOf hsl, toNat_byteOf hsr, Option.map_some]
    unfold contactsByte
    rw [hbl, hbr, hdl, hdr, hcontact]
  · cases f.beacon <;> cases f.dockId <;> simp

/-! ## The envelope (R179) -/

theorem toNat_length {body : List Byte} (h : body.length ≤ 250) : (BitVec.ofNat 8 body.length).toNat = body.length := by
  rw [BitVec.toNat_ofNat, Nat.mod_eq_of_lt (by omega)]

theorem openEnvelope_frameBytes (kind : Byte) {body : List Byte} (h : body.length ≤ 250) :
    openEnvelope (frameBytes kind body) = some (kind, body) := by
  show openEnvelope (BitVec.ofNat 8 body.length :: kind :: (body ++ bytes16 (crc16 (BitVec.ofNat 8 body.length :: kind :: body)))) = _
  unfold openEnvelope
  simp only [toNat_length h, List.drop_left, List.take_left]
  refine if_pos ?_
  simp [bytes16]

/-- A frame whose kind and body carry a command is judged to be it (R166, R169). -/
theorem judgeFrame_of_carries {command : Byte → List Byte → Option Instr} {kind : Byte} {body : List Byte} {i : Instr}
    (bad : Instr) (hwf : i.wellFormed = true) (h : Carries (command kind) body i) :
    judgeFrame command bad (frameBytes kind body) = i := by
  obtain ⟨hcommand, hlength⟩ := h
  simp only [judgeFrame, openEnvelope_frameBytes kind hlength, hcommand, hwf, if_true]

end Sys2Proof
end

section
/-! The receivers: a whole frame over a line puts its command at the end of the queue (R168, R179). -/

namespace Sys2Proof.Machine

/-! ## A receiver over several bytes (R168) -/

/-- What a receiver is after several bytes, and what arrives on the way. -/
def Receiver.takes (r : Receiver) : List Byte → Receiver × List Arrival
  | [] => (r, [])
  | b :: rest => (((r.take b).1.takes rest).1, (r.take b).2.toList ++ ((r.take b).1.takes rest).2)

/-- The bytes after a sync byte are a whole frame: a length byte of at most 250, and as many bytes as it says (R179). -/
def WholeFrame (bytes : List Byte) : Prop :=
  ∃ len rest, bytes = len :: rest ∧ len.toNat ≤ maxBody ∧ bytes.length = len.toNat + 4

/-- A part of a whole frame is full exactly when it is the whole. -/
theorem frameFull_iff {p q : List Byte} (h : WholeFrame (p ++ q)) (hp : p ≠ []) : frameFull p = true ↔ q = [] := by
  obtain ⟨len, rest, heq, -, hlength⟩ := h
  obtain ⟨x, p', rfl⟩ := List.exists_cons_of_ne_nil hp
  obtain rfl : x = len := (List.cons.inj heq).1
  rw [List.length_append] at hlength
  rw [frameFull, beq_iff_eq, ← List.length_eq_zero_iff]
  omega

/-- No byte of a whole frame is a length byte above 250. -/
theorem length_byte_le {p q : List Byte} {b : Byte} (h : WholeFrame (p ++ b :: q)) :
    ¬(p.isEmpty && decide (maxBody < b.toNat)) = true := by
  obtain ⟨len, rest, heq, hlen, -⟩ := h
  cases p with
  | nil =>
    obtain rfl : b = len := (List.cons.inj heq).1
    simp [Nat.not_lt.mpr hlen]
  | cons x p' => simp

/-- A receiver in a frame takes the rest of it, and then hunts again. -/
theorem takes_of_wholeFrame {p q : List Byte} (h : WholeFrame (p ++ q)) (hq : q ≠ []) :
    (Receiver.inFrame p).takes q = (.hunting, [.frame (p ++ q)]) := by
  induction q generalizing p with
  | nil => exact absurd rfl hq
  | cons b rest ih =>
    have hsplit : p ++ b :: rest = (p ++ [b]) ++ rest := by rw [List.append_assoc, List.singleton_append]
    have hfull := frameFull_iff (p := p ++ [b]) (q := rest) (hsplit ▸ h) (by simp)
    by_cases hrest : rest = []
    · have htake : (Receiver.inFrame p).take b = (.hunting, some (.frame (p ++ [b]))) :=
        (if_neg (length_byte_le h)).trans (if_pos (hfull.mpr hrest))
      rw [Receiver.takes, htake, hrest]
      rfl
    · have htake : (Receiver.inFrame p).take b = (.inFrame (p ++ [b]), none) :=
        (if_neg (length_byte_le h)).trans (if_neg (mt hfull.mp hrest))
      rw [Receiver.takes, htake, ih (hsplit ▸ h) hrest, hsplit]
      rfl

theorem wholeFrame_frameBytes (kind : Byte) {body : List Byte} (h : body.length ≤ 250) : WholeFrame (frameBytes kind body) := by
  refine ⟨BitVec.ofNat 8 body.length, _, rfl, ?_, ?_⟩
  · rw [toNat_length h]
    exact h
  · rw [toNat_length h]
    simp [frameBytes, bytes16]

/-- A hunting receiver takes an envelope whole. -/
theorem takes_envelope (kind : Byte) {body : List Byte} (h : body.length ≤ 250) :
    Receiver.hunting.takes (envelope kind body) = (.hunting, [.frame (frameBytes kind body)]) := by
  have htake : Receiver.hunting.take syncByte = (.inFrame [], none) := rfl
  have hrest : (Receiver.inFrame []).takes (frameBytes kind body) = (.hunting, [.frame (frameBytes kind body)]) :=
    takes_of_wholeFrame (p := []) (q := frameBytes kind body) (wholeFrame_frameBytes kind h) (by simp [frameBytes])
  rw [envelope, Receiver.takes, htake, hrest]
  rfl

/-! ## The three lines (R166, R168, R169) -/

theorem takePlanBytes_eq (bs : List Byte) (s : State) : bs.foldl State.takePlanByte s = { s with
    pli := { s.pli with receiver := (s.pli.receiver.takes bs).1 }
    pending := s.pending ++ (s.pli.receiver.takes bs).2.map (Arrival.command decodePlan .planBadFrame) } := by
  induction bs generalizing s with
  | nil => simp [Receiver.takes]
  | cons b rest ih =>
    rw [List.foldl_cons, ih, State.takePlanByte]
    simp only [Receiver.takes, List.map_append, List.append_assoc]
    cases (s.pli.receiver.take b).2 <;> rfl

theorem takeDriveBytes_eq (bs : List Byte) (s : State) : bs.foldl State.takeDriveByte s = { s with
    dli := { s.dli with receiver := (s.dli.receiver.takes bs).1 }
    pending := s.pending ++ (s.dli.receiver.takes bs).2.map (Arrival.command decodeDrive (.linkBadFrame .drive)) } := by
  induction bs generalizing s with
  | nil => simp [Receiver.takes]
  | cons b rest ih =>
    rw [List.foldl_cons, ih, State.takeDriveByte]
    simp only [Receiver.takes, List.map_append, List.append_assoc]
    cases (s.dli.receiver.take b).2 <;> rfl

theorem takeSenseBytes_eq (bs : List Byte) (s : State) : bs.foldl State.takeSenseByte s = { s with
    snp := { s.snp with receiver := (s.snp.receiver.takes bs).1 }
    pending := s.pending ++ (s.snp.receiver.takes bs).2.map (Arrival.command decodeSense (.linkBadFrame .sense)) } := by
  induction bs generalizing s with
  | nil => simp [Receiver.takes]
  | cons b rest ih =>
    rw [List.foldl_cons, ih, State.takeSenseByte]
    simp only [Receiver.takes, List.map_append, List.append_assoc]
    cases (s.snp.receiver.take b).2 <;> rfl

/-- Settles O60. -/
theorem framesDecodeToTheirCommands : Obligations.FramesDecodeToTheirCommands := by
  intro i kind body s hwf he
  refine ⟨fun hplan => ?_, fun hdrive => ?_, fun hsense => ?_⟩
  · have hcarries := planCommand_encode hplan hwf he
    have hdecode : decodePlan (frameBytes kind body) = i := judgeFrame_of_carries .planBadFrame hwf hcarries
    refine ⟨hdecode, fun hr => ?_⟩
    rw [takePlanBytes_eq, hr, takes_envelope kind hcarries.2, ← hr, ← hdecode]
    rfl
  · have hcarries : Carries (driveCommand kind) body i := by
      rcases hdrive with ⟨tL, tR, l, r, rfl⟩ | ⟨b, jam, rfl⟩
      · cases he
        exact odometryBody_encode tL tR l r hwf
      · cases he
        exact brushStatusBody_encode b jam
    have hdecode : decodeDrive (frameBytes kind body) = i := judgeFrame_of_carries (.linkBadFrame .drive) hwf hcarries
    refine ⟨hdecode, fun hr => ?_⟩
    rw [takeDriveBytes_eq, hr, takes_envelope kind hcarries.2, ← hr, ← hdecode]
    rfl
  · obtain ⟨f, rfl⟩ := hsense
    have hcarries : Carries (senseCommand kind) body (.senseFrame f) := by
      cases he
      exact senseBody_encode f hwf
    have hdecode : decodeSense (frameBytes kind body) = .senseFrame f := judgeFrame_of_carries (.linkBadFrame .sense) hwf hcarries
    refine ⟨hdecode, fun hr => ?_⟩
    rw [takeSenseBytes_eq, hr, takes_envelope kind hcarries.2, ← hr, ← hdecode]
    rfl

end Sys2Proof.Machine
end
